-- ==== Sys2Proof/Word.lean ====
section
/-! DEFINITION. The plain value types of the link block (00_scope.md R8, 30_encoding.md R99).
There is no signed value and no multi-byte quantity in the block (R8, 20_memory.md R63). -/

namespace Sys2Proof

/-- The unit of every transfer: one unsigned 8-bit byte (00_scope.md R8, 20_memory.md R61). -/
abbrev Byte := BitVec 8

/-- One line level: `true` is the document's `true` and the spec's `1` (00_scope.md R8, 42_line_control.md R194). -/
abbrev Level := Bool

/-- An unsigned count of milliseconds, without a width of its own (30_encoding.md R99). -/
abbrev Ms := Nat

/-- The opaque operand of OPEN, compared only for identity (30_encoding.md R99).
DESIGN CHOICE (log 18): held as a byte list of any length. -/
abbrev Path := List Byte

/-- A baud rate, unsigned 32-bit (30_encoding.md R99, 10_state.md R28). -/
abbrev Rate := BitVec 32

/-- A vendor or product number, unsigned 16-bit (30_encoding.md R99, 10_state.md R32). -/
abbrev DevId := BitVec 16

end Sys2Proof
end

