-- ==== Sys2Proof/Config.lean ====
section
/-! DEFINITION. The parameters of the block (00_scope.md R7) and the free values (00_scope.md R9 `draw`).
The parameters marked OPEN by R7 are one record of plain data, `Params`; State holds one (log 2), so that
a statement about every state is a statement about every choice of them. -/

namespace Sys2Proof

/-- ESC_FOLLOWER_POLICY (41_deframer.md R150). -/
inductive EscPolicy where
  | literal
  | endFirst
deriving DecidableEq, Repr, Inhabited

/-- SETBOTH_ORDER (42_line_control.md R190). -/
inductive BothOrder where
  | dtrFirst
  | rtsFirst
deriving DecidableEq, Repr, Inhabited

/-- Which bytes are lost when the wire delivers into a full receive queue of finite RX_FIFO_CAP.
DESIGN CHOICE (log 15): the spec gives no rule and asks a model with a finite queue to add a parameter of its
own (93_implementation_defined.md U27). -/
inductive RxLoss where
  | dropNewest
  | dropOldest
deriving DecidableEq, Repr, Inhabited

/-- BAUD_SET, the rates SETBAUD accepts (42_line_control.md R184), as plain data. -/
inductive BaudSet where
  /-- every rate from `lo` to `hi`, both included -/
  | between (lo hi : Rate)
  /-- exactly the rates listed -/
  | listed (rates : List Rate)
deriving DecidableEq, Repr, Inhabited

/-- The parameters of 00_scope.md R7 that are OPEN. A capacity or bound of `none` is "unbounded". -/
structure Params where
  /-- TIMER_W, the width of the timer in bits, at least 7 (43_reset_sequencer.md R221) -/
  timerW     : Nat
  /-- WAIT_SLACK, the upper bound on a wait's overrun (43_reset_sequencer.md R220) -/
  waitSlack  : Option Nat
  /-- BUF_CAP (41_deframer.md R156) -/
  bufCap     : Option Nat
  /-- PAYLOAD_MAX (40_framer.md R120) -/
  payloadMax : Option Nat
  /-- RX_FIFO_CAP (10_state.md R30) -/
  rxFifoCap  : Option Nat
  /-- TX_FIFO_CAP (42_line_control.md R186) -/
  txFifoCap  : Option Nat
  /-- BAUD_SET (42_line_control.md R184) -/
  baudSet    : BaudSet
  /-- ESC_FOLLOWER_POLICY (41_deframer.md R150) -/
  escPolicy  : EscPolicy
  /-- SETBOTH_ORDER (42_line_control.md R190) -/
  bothOrder  : BothOrder
  /-- the model's own parameter for a finite RX_FIFO_CAP (log 15) -/
  rxLoss     : RxLoss
deriving DecidableEq, Repr, Inhabited

/-- One step of the wire agent that is no failure of a command (20_memory.md R69, R70, R78). -/
inductive WireStep where
  /-- `tx_take(k)` (R69) -/
  | txTake (k : Nat)
  /-- `rx_deliver(bs)` (R70) -/
  | rxDeliver (bs : List Byte)
  /-- `observe` (R78): samples both lines. The operands are the levels found on lines that were never written,
  which are `draw({0,1})` (10_state.md R29). -/
  | observe (dtr rts : Level)
deriving DecidableEq, Repr, Inhabited

/-- The free values of ONE point of a command at which the wire may act. Each point uses the fields its rule
names and leaves the others unread (log 1, 11). -/
structure Draw where
  /-- what the wire does at this point, in order (20_memory.md R78) -/
  moves  : List WireStep
  /-- whether `io_fail` strikes at this point, if it is an `io` point (42_line_control.md R193) -/
  ioFail : Bool
  /-- the wire's answer to an OPEN (42_line_control.md R180) -/
  avail  : Bool
  /-- what the receive queue holds when an OPEN succeeds (42_line_control.md R180) -/
  rx     : List Byte
  /-- the overrun of a WAIT (43_reset_sequencer.md R220), or how long a READ goes on (42_line_control.md R187) -/
  extra  : Nat
deriving DecidableEq, Repr, Inhabited

/-- The free value of the n-th draw: no body, so nothing can be proved of it (log 1). -/
opaque Config.freeDraw : Nat → Draw

end Sys2Proof
end

