-- ==== Sys2Proof/Machine/Constants.lean ====
section
/-! DEFINITION. The numeric literals of 00_scope.md R7, each a named constant
(93_implementation_defined.md U1: the literals are unaudited, so that a later audit changes one line),
and the default of every OPEN parameter. The delays of the sequences stand in the ROM (Machine/Sequencer.lean). -/

namespace Sys2Proof.Machine

/-- END (30_encoding.md R91). -/
abbrev endByte : Byte := 0xC0
/-- ESC (30_encoding.md R91). -/
abbrev escByte : Byte := 0xDB
/-- ESC_END (30_encoding.md R91). -/
abbrev escEndByte : Byte := 0xDC
/-- ESC_ESC (30_encoding.md R91). -/
abbrev escEscByte : Byte := 0xDD

/-- DEFAULT_BAUD (42_line_control.md R180). -/
abbrev defaultBaud : Rate := 115200
/-- DATA_BITS (42_line_control.md R181). -/
abbrev dataBits : Nat := 8
/-- STOP_BITS (42_line_control.md R181). -/
abbrev stopBits : Nat := 1
/-- READ_CHUNK (42_line_control.md R187). -/
abbrev readChunk : Nat := 4096
/-- USB_VID (43_reset_sequencer.md R222). -/
abbrev usbVid : DevId := 0x303A
/-- USB_PID (43_reset_sequencer.md R222). -/
abbrev usbPid : DevId := 0x1001
/-- TICK in milliseconds (43_reset_sequencer.md R220). -/
abbrev tickMs : Nat := 1

/-- The defaults of 00_scope.md R7; for `rxLoss`, which is the model's own, DESIGN CHOICE (log 15). -/
def defaultParams : Params where
  timerW     := 16
  waitSlack  := none
  bufCap     := none
  payloadMax := none
  rxFifoCap  := none
  txFifoCap  := none
  baudSet    := .between 1 0xFFFFFFFF
  escPolicy  := .literal
  bothOrder  := .dtrFirst
  rxLoss     := .dropNewest

end Sys2Proof.Machine
end

