-- ==== Sys2Proof/Syntax.lean ====
section
/-! DEFINITION. The instructions: one constructor per row of spec/opcode_table.json (30_encoding.md R92, R93,
R97), the three formats, the names of the commands, and the entries of the ROM (R100). -/

namespace Sys2Proof

/-- The three formats of the opcode table; each has a decoder of its own (30_encoding.md R103). -/
inductive Format where
  /-- P: a payload byte given to the framer (R92) -/
  | payload
  /-- W: a received byte given to the deframer (R93) -/
  | wire
  /-- CMD: a command given at the command port (R97) -/
  | command
deriving DecidableEq, Repr, Inhabited

/-- The sixteen commands by name (30_encoding.md R97). -/
inductive Cmd where
  | encode | fdFeed | fdReset | openDev | closeDev | setBaud | flush | write
  | read | setDtr | setRts | setBoth | wait | select | runEnter | runHard
deriving DecidableEq, Repr, Inhabited

/-- One entry of a sequence of the ROM: a command restricted to three mnemonics (30_encoding.md R100). -/
inductive RomEntry where
  | setDtr (v : Level)
  | setRts (v : Level)
  | wait (n : Ms)
deriving DecidableEq, Repr, Inhabited

/-- One constructor per row of spec/opcode_table.json. -/
inductive Instr where
  /-- FE.END: the payload byte 0xC0 (40_framer.md R122) -/
  | feEnd
  /-- FE.ESC: the payload byte 0xDB (40_framer.md R123) -/
  | feEsc
  /-- FE.LIT: any other payload byte (40_framer.md R121) -/
  | feLit (p : Byte)
  /-- FD.END: the received byte 0xC0 (30_encoding.md R93) -/
  | fdEnd
  /-- FD.ESC: the received byte 0xDB (30_encoding.md R93) -/
  | fdEsc
  /-- FD.ESC_END: the received byte 0xDC (30_encoding.md R93) -/
  | fdEscEnd
  /-- FD.ESC_ESC: the received byte 0xDD (30_encoding.md R93) -/
  | fdEscEsc
  /-- FD.DATA: any other received byte (30_encoding.md R93) -/
  | fdData (b : Byte)
  /-- ENCODE payload (40_framer.md R120) -/
  | encode (payload : List Byte)
  /-- FD_FEED b (41_deframer.md R140) -/
  | fdFeed (b : Byte)
  /-- FD_RESET (41_deframer.md R151) -/
  | fdReset
  /-- OPEN path (42_line_control.md R180) -/
  | openDev (path : Path)
  /-- CLOSE (42_line_control.md R183) -/
  | closeDev
  /-- SETBAUD rate (42_line_control.md R184) -/
  | setBaud (rate : Rate)
  /-- FLUSH (42_line_control.md R185) -/
  | flush
  /-- WRITE bytes (42_line_control.md R186) -/
  | write (bytes : List Byte)
  /-- READ timeout (42_line_control.md R187) -/
  | read (timeout : Ms)
  /-- SETDTR v (42_line_control.md R188) -/
  | setDtr (v : Level)
  /-- SETRTS v (42_line_control.md R189) -/
  | setRts (v : Level)
  /-- SETBOTH d, r (42_line_control.md R190) -/
  | setBoth (d r : Level)
  /-- WAIT n (43_reset_sequencer.md R220) -/
  | wait (n : Ms)
  /-- SELECT vid, pid (43_reset_sequencer.md R222); `none` is "absent" -/
  | select (vid pid : Option DevId)
  /-- RUN_ENTER (43_reset_sequencer.md R226) -/
  | runEnter
  /-- RUN_HARD (43_reset_sequencer.md R227) -/
  | runHard
deriving DecidableEq, Repr, Inhabited

/-- The port at which an instruction is presented: the format column of the opcode table. -/
def Instr.format : Instr → Format
  | .feEnd => .payload
  | .feEsc => .payload
  | .feLit _ => .payload
  | .fdEnd => .wire
  | .fdEsc => .wire
  | .fdEscEnd => .wire
  | .fdEscEsc => .wire
  | .fdData _ => .wire
  | .encode _ => .command
  | .fdFeed _ => .command
  | .fdReset => .command
  | .openDev _ => .command
  | .closeDev => .command
  | .setBaud _ => .command
  | .flush => .command
  | .write _ => .command
  | .read _ => .command
  | .setDtr _ => .command
  | .setRts _ => .command
  | .setBoth _ _ => .command
  | .wait _ => .command
  | .select _ _ => .command
  | .runEnter => .command
  | .runHard => .command

/-- A ROM entry as the command of the same name (30_encoding.md R100). -/
def RomEntry.toInstr : RomEntry → Instr
  | .setDtr v => .setDtr v
  | .setRts v => .setRts v
  | .wait n => .wait n

end Sys2Proof
end

