-- ==== Sys2Proof/WellFormed.lean ====
section
/-! DEFINITION. Which terms of `Instr` are instructions. The two catch-all rows of the byte classes exclude
the bytes of the rows tested before them: "Rows are tested top to bottom; the first match wins"
(30_encoding.md R92, R93). Every other operand type holds only legal operands (R99); whether an operand is in
range (WAIT, SETBAUD, ENCODE) depends on the parameters and is a fault of the command, not ill-formedness
(60_exceptions.md R278). -/

namespace Sys2Proof

/-- A payload byte of class FE.LIT (30_encoding.md R92). -/
def isLiteralPayload (p : Byte) : Bool :=
  p != Machine.endByte && p != Machine.escByte

/-- A received byte of class FD.DATA (30_encoding.md R93). -/
def isDataByte (b : Byte) : Bool :=
  b != Machine.endByte && b != Machine.escByte && b != Machine.escEndByte && b != Machine.escEscByte

/-- The well-formedness of an instruction. -/
def Instr.wellFormed : Instr → Bool
  | .feEnd => true
  | .feEsc => true
  | .feLit p => isLiteralPayload p
  | .fdEnd => true
  | .fdEsc => true
  | .fdEscEnd => true
  | .fdEscEsc => true
  | .fdData b => isDataByte b
  | .encode _ => true
  | .fdFeed _ => true
  | .fdReset => true
  | .openDev _ => true
  | .closeDev => true
  | .setBaud _ => true
  | .flush => true
  | .write _ => true
  | .read _ => true
  | .setDtr _ => true
  | .setRts _ => true
  | .setBoth _ _ => true
  | .wait _ => true
  | .select _ _ => true
  | .runEnter => true
  | .runHard => true

end Sys2Proof
end

