-- ==== Sys2Proof/Decode.lean ====
section
/-! DEFINITION. The three decoders (30_encoding.md R103), total on any bytes, and after them the encoder.
The code of a command is the spec's (R97). DESIGN CHOICE (log 4): the bytes of the operands, since the spec
gives operands as typed values and no bits: a byte list, a path and a count of milliseconds take the whole
rest of the presented bytes (a count as little-endian base-256 digits), a rate 4 bytes little-endian, a level
and a byte 1 byte, an identifier `00` (absent) or `01 lo hi`. -/

namespace Sys2Proof

/-- What a decoder answers. -/
inductive Decoded where
  | ok (i : Instr)
  /-- a reserved command code (30_encoding.md R98) -/
  | reserved (code : Byte)
  /-- bytes that are no code with operands of its types (30_encoding.md R99; log 7) -/
  | malformed
deriving DecidableEq, Repr

/-- `code[7:0]` of a command (30_encoding.md R97). -/
def Cmd.code : Cmd → Byte
  | .encode => 0x00
  | .fdFeed => 0x01
  | .fdReset => 0x02
  | .openDev => 0x03
  | .closeDev => 0x04
  | .setBaud => 0x05
  | .flush => 0x06
  | .write => 0x07
  | .read => 0x08
  | .setDtr => 0x09
  | .setRts => 0x0A
  | .setBoth => 0x0B
  | .wait => 0x0C
  | .select => 0x0D
  | .runEnter => 0x0E
  | .runHard => 0x0F

/-- The commands in the order of 30_encoding.md R97. -/
def Cmd.all : List Cmd :=
  [.encode, .fdFeed, .fdReset, .openDev, .closeDev, .setBaud, .flush, .write,
   .read, .setDtr, .setRts, .setBoth, .wait, .select, .runEnter, .runHard]

/-- Look a code up in the table of 30_encoding.md R97; `none` for the reserved codes of R98. -/
def Cmd.ofCode (c : Byte) : Option Cmd :=
  Cmd.all.find? (fun k => k.code == c)

/-- A count from its little-endian base-256 digits. -/
def natOfBytes : List Byte → Nat
  | [] => 0
  | b :: bs => b.toNat + 256 * natOfBytes bs

/-- The little-endian base-256 digits of `n`, at most `fuel` of them. -/
def bytesOfNatFuel : Nat → Nat → List Byte
  | 0, _ => []
  | fuel + 1, n => if n = 0 then [] else BitVec.ofNat 8 n :: bytesOfNatFuel fuel (n / 256)

/-- The little-endian base-256 digits of a count, none for 0. -/
def bytesOfNat (n : Nat) : List Byte := bytesOfNatFuel n n

/-- A level operand: "No other value exists" than 0 and 1 (30_encoding.md R99). -/
def decodeLevel (b : Byte) : Option Level :=
  if b = 0 then some false else if b = 1 then some true else none

/-- An optional identifier, and the bytes after it. -/
def decodeId : List Byte → Option (Option DevId × List Byte)
  | [] => none
  | tag :: rest =>
    if tag = 0 then some (none, rest)
    else if tag = 1 then
      match rest with
      | lo :: hi :: rest' => some (some (hi ++ lo), rest')
      | _ => none
    else none

/-- SELECT's two identifiers. -/
def decodeIds (bs : List Byte) : Option (Option DevId × Option DevId) :=
  match decodeId bs with
  | none => none
  | some (vid, rest) =>
    match decodeId rest with
    | some (pid, []) => some (vid, pid)
    | _ => none

/-- The operands of a command from the bytes after its code (30_encoding.md R99). -/
def decodeOperands (c : Cmd) (bs : List Byte) : Option Instr :=
  match c with
  | .encode => some (.encode bs)
  | .fdFeed => match bs with | [b] => some (.fdFeed b) | _ => none
  | .fdReset => match bs with | [] => some .fdReset | _ => none
  | .openDev => some (.openDev bs)
  | .closeDev => match bs with | [] => some .closeDev | _ => none
  | .setBaud => match bs with | [b0, b1, b2, b3] => some (.setBaud (b3 ++ b2 ++ b1 ++ b0)) | _ => none
  | .flush => match bs with | [] => some .flush | _ => none
  | .write => some (.write bs)
  | .read => some (.read (natOfBytes bs))
  | .setDtr => match bs with | [b] => (decodeLevel b).map .setDtr | _ => none
  | .setRts => match bs with | [b] => (decodeLevel b).map .setRts | _ => none
  | .setBoth =>
    match bs with
    | [b, b'] =>
      match decodeLevel b, decodeLevel b' with
      | some d, some r => some (.setBoth d r)
      | _, _ => none
    | _ => none
  | .wait => some (.wait (natOfBytes bs))
  | .select => (decodeIds bs).map (fun ids => .select ids.1 ids.2)
  | .runEnter => match bs with | [] => some .runEnter | _ => none
  | .runHard => match bs with | [] => some .runHard | _ => none

/-- The transmit classification of a payload byte, rows top to bottom (30_encoding.md R92). -/
def decodePayloadByte (p : Byte) : Instr :=
  if p = Machine.endByte then .feEnd
  else if p = Machine.escByte then .feEsc
  else .feLit p

/-- The receive classification of a wire byte, rows top to bottom (30_encoding.md R93). -/
def decodeWireByte (b : Byte) : Instr :=
  if b = Machine.endByte then .fdEnd
  else if b = Machine.escByte then .fdEsc
  else if b = Machine.escEndByte then .fdEscEnd
  else if b = Machine.escEscByte then .fdEscEsc
  else .fdData b

/-- The command decoder: the code first, then the operands (30_encoding.md R103 (c)). -/
def decodeCommand : List Byte → Decoded
  | [] => .malformed
  | c :: bs =>
    match Cmd.ofCode c with
    | none => .reserved c
    | some k =>
      match decodeOperands k bs with
      | some i => .ok i
      | none => .malformed

/-- The decoder of each format (30_encoding.md R103). -/
def decode (f : Format) (bs : List Byte) : Decoded :=
  match f with
  | .payload => match bs with | [p] => .ok (decodePayloadByte p) | _ => .malformed
  | .wire => match bs with | [b] => .ok (decodeWireByte b) | _ => .malformed
  | .command => decodeCommand bs

/-! ### The encoder -/

/-- The byte of a level. -/
def encodeLevel (v : Level) : Byte := if v then 1 else 0

/-- The bytes of an optional identifier. -/
def encodeId : Option DevId → List Byte
  | none => [0]
  | some v => [1, v.extractLsb' 0 8, v.extractLsb' 8 8]

/-- The bytes of an instruction, as presented at the port of its format. -/
def encode : Instr → List Byte
  | .feEnd => [Machine.endByte]
  | .feEsc => [Machine.escByte]
  | .feLit p => [p]
  | .fdEnd => [Machine.endByte]
  | .fdEsc => [Machine.escByte]
  | .fdEscEnd => [Machine.escEndByte]
  | .fdEscEsc => [Machine.escEscByte]
  | .fdData b => [b]
  | .encode payload => Cmd.encode.code :: payload
  | .fdFeed b => [Cmd.fdFeed.code, b]
  | .fdReset => [Cmd.fdReset.code]
  | .openDev path => Cmd.openDev.code :: path
  | .closeDev => [Cmd.closeDev.code]
  | .setBaud rate =>
    [Cmd.setBaud.code, rate.extractLsb' 0 8, rate.extractLsb' 8 8, rate.extractLsb' 16 8, rate.extractLsb' 24 8]
  | .flush => [Cmd.flush.code]
  | .write bytes => Cmd.write.code :: bytes
  | .read timeout => Cmd.read.code :: bytesOfNat timeout
  | .setDtr v => [Cmd.setDtr.code, encodeLevel v]
  | .setRts v => [Cmd.setRts.code, encodeLevel v]
  | .setBoth d r => [Cmd.setBoth.code, encodeLevel d, encodeLevel r]
  | .wait n => Cmd.wait.code :: bytesOfNat n
  | .select vid pid => Cmd.select.code :: (encodeId vid ++ encodeId pid)
  | .runEnter => [Cmd.runEnter.code]
  | .runHard => [Cmd.runHard.code]

/-! ### Words as the opcode table numbers them -/

/-- How many operand bytes a command has at least; the operands without a fixed length may be empty. -/
def Cmd.operandBytes : Cmd → Nat
  | .encode => 0
  | .fdFeed => 1
  | .fdReset => 0
  | .openDev => 0
  | .closeDev => 0
  | .setBaud => 4
  | .flush => 0
  | .write => 0
  | .read => 0
  | .setDtr => 1
  | .setRts => 1
  | .setBoth => 2
  | .wait => 0
  | .select => 2
  | .runEnter => 0
  | .runHard => 0

/-- The `n` lowest bytes of `w`, the least significant first. -/
def wordBytes : Nat → Nat → List Byte
  | 0, _ => []
  | n + 1, w => BitVec.ofNat 8 w :: wordBytes n (w / 256)

/-- A word of the opcode table as an item presented to the block: the port and the bytes, with operand bytes
of zero above `nbits`. The table gives its three formats the same 8 bits. DESIGN CHOICE (log 5): a first byte
that is a command code is a command; any other byte is a received byte (format W). -/
def tableItem (nbits w : Nat) : Format × List Byte :=
  match Cmd.ofCode (BitVec.ofNat 8 w) with
  | some c => (.command, wordBytes (1 + max (nbits / 8 - 1) c.operandBytes) w)
  | none => (.wire, wordBytes (max (nbits / 8) 1) w)

/-- The instruction the decoder reads from a word of the opcode table. -/
def decodeTableWord (nbits w : Nat) : Option Instr :=
  match decode (tableItem nbits w).1 (tableItem nbits w).2 with
  | .ok i => some i
  | .reserved _ => none
  | .malformed => none

end Sys2Proof
end

