-- ==== Sys2Proof/Machine/State.lean ====
section
/-! DEFINITION. The state of the block: every field of 10_state.md R20, and, apart from them, the model's own
fields (log 1, 2, 3, 8, 10, 12). All of it is plain data. -/

namespace Sys2Proof.Machine

/-- FD.state (10_state.md R21). -/
inductive FdState where
  | idle
  | started
  | escape
deriving DecidableEq, Repr, Inhabited

/-- The two control lines (42_line_control.md, 10_state.md R29). -/
inductive Line where
  | dtr
  | rts
deriving DecidableEq, Repr, Inhabited

/-- LC.parity: the one legal value (10_state.md R27, R44). -/
inductive Parity where
  | noParity
deriving DecidableEq, Repr, Inhabited

/-- The six constant line-format fields (10_state.md R20, R27). -/
structure LineFormat where
  dataBits : Nat
  parity   : Parity
  stopBits : Nat
  flowHw   : Bool
  flowSw   : Bool
  raw      : Bool
deriving DecidableEq, Repr, Inhabited

/-- The two bootloader-entry strategies (10_state.md R33). -/
inductive Strategy where
  | usbNative
  | bridge
deriving DecidableEq, Repr, Inhabited

/-- The three sequences of the ROM (10_state.md R36). -/
inductive SeqName where
  | seqUsb
  | seqBridge
  | seqHard
deriving DecidableEq, Repr, Inhabited

/-- The block's eight faults with what each records (60_exceptions.md R271 to R278). -/
inductive BlockFault where
  /-- X_BAD_CMD(code) (R271) -/
  | badCmd (code : Byte)
  /-- X_NOT_OPEN(mnemonic) (R272) -/
  | notOpen (cmd : Cmd)
  /-- X_ALREADY_OPEN(path) (R273) -/
  | alreadyOpen (path : Path)
  /-- X_IO(mnemonic), inside a sequence also the sequence and the entry index (R274) -/
  | io (cmd : Cmd) (at_ : Option (SeqName × Nat))
  /-- X_NO_STRATEGY (R275) -/
  | noStrategy
  /-- X_STRATEGY_LOCKED(strategy held) (R276) -/
  | strategyLocked (held : Strategy)
  /-- X_FD_OVERFLOW(BUF_CAP) (R277) -/
  | fdOverflow (cap : Nat)
  /-- X_BAD_OPERAND(operand) (R278) -/
  | badOperand (operand : Nat)
deriving DecidableEq, Repr, Inhabited

/-- The events of the observation trace (10_state.md R37). -/
inductive Event where
  | opened (path : Path)
  | openFail (path : Path)
  | closed
  | baud (rate : Rate)
  | flush
  | line (l : Line) (v : Level)
  | wait (n : Ms)
  | tx (bytes : List Byte)
  | rx (bytes : List Byte)
  | pkt (bytes : List Byte)
  | fault (f : BlockFault)
deriving DecidableEq, Repr, Inhabited

/-- What a command returned to the host (00_scope.md R9, 30_encoding.md R97). The model's own (log 8). -/
inductive Result where
  /-- a command whose result is "none" has ended -/
  | done
  | bytes (bs : List Byte)
  | packet (p : Option (List Byte))
  | opened
  | openFailed
  | fault (f : BlockFault)
deriving DecidableEq, Repr, Inhabited

/-- One turn of the surroundings, between commands (log 3). -/
inductive Input where
  /-- the host presents bytes at a port -/
  | host (f : Format) (bytes : List Byte)
  /-- the wire takes a step (20_memory.md R78) -/
  | wire (w : WireStep)
  /-- block reset at the start of a flash attempt (70_reset_and_hazards.md R300) -/
  | blockReset
deriving DecidableEq, Repr, Inhabited

/-- A WRITE that has not returned: the bytes accepted and those still to come (42_line_control.md R186). -/
structure Writing where
  accepted  : List Byte
  remaining : List Byte
deriving DecidableEq, Repr, Inhabited

/-- The surroundings. The model's own (log 1, 3, 12). -/
structure Env where
  /-- the turns still to come -/
  input     : List Input
  /-- the free values of the coming draws, in order; past their end, `Config.freeDraw` -/
  draws     : List Draw
  /-- how many draws have been made -/
  drawCount : Nat
  /-- the bytes the wire has taken, oldest first -/
  taken     : List Byte
  /-- the levels (DTR, RTS) the wire has sampled, oldest first -/
  samples   : List (Level × Level)
  /-- the commands the host has issued in this run, the port and the bytes of each, oldest first
  (70_reset_and_hazards.md R306) -/
  issued    : List (Format × List Byte)
deriving DecidableEq, Repr, Inhabited

/-- The state: the fields of 10_state.md R20, then the model's own. -/
structure State where
  fdState    : FdState
  fdBuf      : List Byte
  lcOpen     : Bool
  lcPath     : Path
  lcFormat   : LineFormat
  lcBaud     : Rate
  lcDtr      : Option Level
  lcRts      : Option Level
  lcRx       : List Byte
  lcTx       : List Byte
  rsStrategy : Option Strategy
  rsSeq      : Option SeqName
  rsPc       : Nat
  tmRem      : Nat
  now        : Nat
  trace      : List Event
  -- the model's own
  lcWriting  : Option Writing
  result     : Result
  cfg        : Params
  env        : Env
deriving DecidableEq, Repr, Inhabited

/-- The reasons the machine stops with a fault: none. A fault of the block ends one command and leaves the
block "ready for the next command" (60_exceptions.md R282), so it is a next state (log 6); no rule of the spec
stops the block. Safe: a type without constructors lets no meaning stop. -/
inductive Fault where
deriving DecidableEq, Repr

/-- The reasons a step is refused. -/
inductive Refusal where
  /-- raised by an arm of `exec` for an instruction that has no meaning; no arm raises it. Safe. -/
  | notModelled (mnemonic : String)
  /-- raised by `step` when the bytes presented at a port are no code with operands of its types, which the
  spec's typed command port cannot express (30_encoding.md R99; log 7). Safe. -/
  | malformedCommand
deriving DecidableEq, Repr

/-- What a meaning and the step answer. -/
abbrev Out := Host.Outcome State Fault Refusal

/-- The line format while closed, "meaningless" (10_state.md R46). DESIGN CHOICE (log 9). -/
def LineFormat.meaningless : LineFormat :=
  { dataBits := 0, parity := .noParity, stopBits := 0, flowHw := false, flowSw := false, raw := false }

/-- The block right after a block reset (10_state.md R46, 70_reset_and_hazards.md R300), with the default
parameters (00_scope.md R7). The values of `lcPath`, `lcFormat` and `lcBaud`, "meaningless" in R46, are DESIGN
CHOICE (log 9); those of the model's own fields are log 1, 3, 8, 10, 12. -/
def State.reset : State where
  fdState    := .idle
  fdBuf      := []
  lcOpen     := false
  lcPath     := []
  lcFormat   := LineFormat.meaningless
  lcBaud     := 0
  lcDtr      := none
  lcRts      := none
  lcRx       := []
  lcTx       := []
  rsStrategy := none
  rsSeq      := none
  rsPc       := 0
  tmRem      := 0
  now        := 0
  trace      := []
  lcWriting  := none
  result     := .done
  cfg        := defaultParams
  env        := { input := [], draws := [], drawCount := 0, taken := [], samples := [], issued := [] }

end Sys2Proof.Machine
end

