-- ==== Sys2Proof/Machine/Flags.lean ====
section
/-! DEFINITION. The status items of 10_state.md R43: FD.state, LC.is_open, the two line registers,
RS.strategy. The block has no condition codes (R43): nothing else is a flag. Also the numeric fault codes
(60_exceptions.md R271 to R278), this spec's own ordinals. -/

namespace Sys2Proof.Machine

/-- The value of a line register; `none` is "level unknown" (10_state.md R29). -/
def State.lineReg (s : State) : Line → Option Level
  | .dtr => s.lcDtr
  | .rts => s.lcRts

/-- Write one line register and no other (42_line_control.md R188, R189, R191). -/
def State.setLineReg (s : State) (l : Line) (r : Option Level) : State :=
  match l with
  | .dtr => { s with lcDtr := r }
  | .rts => { s with lcRts := r }

/-- The command that writes a line. -/
def Line.cmd : Line → Cmd
  | .dtr => .setDtr
  | .rts => .setRts

/-- The levels the wire sees: the last value written; on a line never written, the free level `d` or `r`
(10_state.md R29). -/
def State.levelsSeen (s : State) (d r : Level) : Level × Level :=
  (s.lcDtr.getD d, s.lcRts.getD r)

/-- The code of a fault (60_exceptions.md R271 to R278). -/
def BlockFault.code : BlockFault → Nat
  | .badCmd _ => 1
  | .notOpen _ => 2
  | .alreadyOpen _ => 3
  | .io _ _ => 4
  | .noStrategy => 5
  | .strategyLocked _ => 6
  | .fdOverflow _ => 7
  | .badOperand _ => 8

end Sys2Proof.Machine
end

