-- ==== Sys2Proof/Machine/Operands.lean ====
section
/-! DEFINITION. What the block computes from operands, parameters and draws: all of it unsigned counts,
comparisons and copies (43_reset_sequencer.md R239). -/

namespace Sys2Proof.Machine

/-- Room for one more: a length strictly below a capacity, always with an unbounded one
(42_line_control.md R186, 41_deframer.md R156). -/
def hasRoom (cap : Option Nat) (len : Nat) : Bool :=
  match cap with
  | none => true
  | some c => len < c

/-- A length within a bound, always with an unbounded one (40_framer.md R120). -/
def within (bound : Option Nat) (len : Nat) : Bool :=
  match bound with
  | none => true
  | some c => len ≤ c

/-- A rate in BAUD_SET (42_line_control.md R184). -/
def baudAccepted (set : BaudSet) (rate : Rate) : Bool :=
  match set with
  | .between lo hi => lo ≤ rate && rate ≤ hi
  | .listed rates => rates.contains rate

/-- A WAIT operand that fits the timer: `n < 2^TIMER_W` (43_reset_sequencer.md R220). -/
def fitsTimer (timerW : Nat) (n : Ms) : Bool := n < 2 ^ timerW

/-- The overrun of a WAIT: a draw from 0 to WAIT_SLACK, without a bound where there is none
(43_reset_sequencer.md R220). Every value of that range is reached by the draw of that value. -/
def overrun (slack : Option Nat) (extra : Nat) : Nat :=
  match slack with
  | none => extra
  | some k => min extra k

/-- How long a READ goes on: the whole timeout while nothing has arrived, else a draw of at most the timeout
(42_line_control.md R187). -/
def readDuration (rx : List Byte) (timeout : Ms) (extra : Nat) : Nat :=
  if rx = [] then timeout else min extra timeout

/-- The strategy of a device identity: USB_NATIVE when both identifiers are present and equal the fixed pair
(43_reset_sequencer.md R222). -/
def strategyOf (vid pid : Option DevId) : Strategy :=
  if vid = some usbVid ∧ pid = some usbPid then .usbNative else .bridge

/-- The entry sequence of a strategy (43_reset_sequencer.md R226). -/
def entrySeq : Strategy → SeqName
  | .usbNative => .seqUsb
  | .bridge => .seqBridge

/-- The receive queue after the wire delivers `new`: everything where RX_FIFO_CAP is unbounded (10_state.md
R30); with a finite one, the loss rule is the model's own parameter (log 15). -/
def storeRx (p : Params) (queue new : List Byte) : List Byte :=
  match p.rxFifoCap with
  | none => queue ++ new
  | some c =>
    match p.rxLoss with
    | .dropNewest => (queue ++ new).take c
    | .dropOldest => (queue ++ new).drop ((queue ++ new).length - c)

/-- The line format an OPEN sets (42_line_control.md R180, R181). -/
def openFormat : LineFormat :=
  { dataBits := dataBits, parity := .noParity, stopBits := stopBits, flowHw := false, flowSw := false, raw := true }

end Sys2Proof.Machine
end

