-- ==== Sys2Proof/Machine/Ops.lean ====
section
/-! DEFINITION. The operations the meanings share: the pseudocode primitives of 00_scope.md R9, the wire
agent's steps (20_memory.md R69, R70, R78), taking a fault (60_exceptions.md R282), the line write
(42_line_control.md R188, R189), the flush (R185), the timer (43_reset_sequencer.md R220) and block reset
(70_reset_and_hazards.md R300). -/

namespace Sys2Proof.Machine

/-! ### Events, results, faults -/

/-- `emit(ev)` (00_scope.md R9). -/
def State.emit (s : State) (e : Event) : State := { s with trace := s.trace ++ [e] }

/-- `return v` (00_scope.md R9): the result of the command (log 8). -/
def State.ret (s : State) (r : Result) : State := { s with result := r }

/-- TAKING A FAULT, for every fault of the block (60_exceptions.md R282): the event is appended and the fault
is the command's result; "Nothing is saved, no mode changes, no mask changes, control goes nowhere".
There is no return from it: "There is no return-from-fault operation" (R284). -/
def State.raise (s : State) (f : BlockFault) : State := (s.emit (.fault f)).ret (.fault f)

/-- `require LC.is_open = 1 else raise X_NOT_OPEN` (42_line_control.md R196, 60_exceptions.md R272). -/
def State.requireOpen (s : State) (c : Cmd) (body : State) : State :=
  if s.lcOpen then body else s.raise (.notOpen c)

/-! ### The wire agent -/

/-- One step of the wire. A step that is not enabled has no effect (log 13): `tx_take(k)` is enabled for
`1 <= k <= len(LC.tx_fifo)` while open (20_memory.md R69), `rx_deliver` while open (R70). -/
def State.wireStep (s : State) : WireStep → State
  | .txTake k =>
    if s.lcOpen = true ∧ 1 ≤ k ∧ k ≤ s.lcTx.length then
      { s with lcTx := s.lcTx.drop k, env := { s.env with taken := s.env.taken ++ s.lcTx.take k } }
    else s
  | .rxDeliver bs =>
    if s.lcOpen then { s with lcRx := storeRx s.cfg s.lcRx bs } else s
  | .observe d r =>
    { s with env := { s.env with samples := s.env.samples ++ [s.levelsSeen d r] } }

/-- Several steps of the wire, in order. -/
def State.wireSteps : State → List WireStep → State
  | s, [] => s
  | s, m :: ms => (s.wireStep m).wireSteps ms

/-- The `k`-th free value to come, counted from 0 (log 1). -/
def State.drawAt (s : State) (k : Nat) : Draw :=
  match s.env.draws[k]? with
  | some d => d
  | none => Config.freeDraw (s.env.drawCount + k)

/-- The free value of the next point. -/
def State.nextDraw (s : State) : Draw := s.drawAt 0

/-- The state after that value has been used. -/
def State.drawn (s : State) : State :=
  { s with env := { s.env with draws := s.env.draws.tail, drawCount := s.env.drawCount + 1 } }

/-- A point of a command at which the wire may act: it does what the next draw says (20_memory.md R78). The
rest of the draw is read from `s.nextDraw` by the rule of that point. -/
def State.wireTurn (s : State) : State := s.drawn.wireSteps s.nextDraw.moves

/-! ### Line control -/

/-- A line write that succeeds: the register and the event, also when the level does not change
(42_line_control.md R188, R189, R192). -/
def State.writeLine (s : State) (l : Line) (v : Level) : State :=
  (s.setLineReg l (some v)).emit (.line l v)

/-- Empty both queues and record it (42_line_control.md R185). -/
def State.flushQueues (s : State) : State :=
  ({ s with lcRx := [], lcTx := [] }).emit .flush

/-- `push_tx(b)` (00_scope.md R9). -/
def State.pushTx (s : State) (b : Byte) : State := { s with lcTx := s.lcTx ++ [b] }

/-- `pop_rx(k)` (00_scope.md R9): the state without the first `k` received bytes. -/
def State.popRx (s : State) (k : Nat) : State := { s with lcRx := s.lcRx.drop k }

/-! ### Timer -/

/-- The loop of WAIT, one iteration per tick (43_reset_sequencer.md R220). -/
def State.ticks : State → Nat → State
  | s, 0 => s
  | s, n + 1 => ({ s with tmRem := s.tmRem - 1, now := s.now + tickMs }).ticks n

/-- WAIT with an operand that fits (43_reset_sequencer.md R220): load the timer, count it down, overrun, event.
DEDUCED (log 11): what the wire does during the wait is one turn, since its steps and the ticks touch no
common field. -/
def State.waitFor (s : State) (n : Ms) : State :=
  let counted := ({ s.wireTurn with tmRem := n } : State).ticks n
  ({ counted with now := counted.now + overrun s.cfg.waitSlack s.nextDraw.extra }).emit (.wait n)

/-! ### Block reset and the surroundings -/

/-- Block reset (70_reset_and_hazards.md R300): every field of 10_state.md R20 to its reset value. The
parameters and the surroundings are not the block's and stay (log 20); a new run begins, in which no command has
been issued yet (R306). -/
def State.blockReset (s : State) : State :=
  { State.reset with cfg := s.cfg, env := { s.env with issued := [] } }

/-- The state whose next turns are `rest`. -/
def State.withInput (s : State) (rest : List Input) : State :=
  { s with env := { s.env with input := rest } }

/-- The host issues a command, and its next turns are `rest`: the command joins the commands of the run
(70_reset_and_hazards.md R306; log 12). -/
def State.issuing (s : State) (f : Format) (bs : List Byte) (rest : List Input) : State :=
  { s with env := { s.env with input := rest, issued := s.env.issued ++ [(f, bs)] } }

/-- Present bytes at a port as the very next turn, with no WRITE in the way. -/
def State.present (s : State) (f : Format) (bs : List Byte) : State :=
  { s with lcWriting := none, env := { s.env with input := .host f bs :: s.env.input } }

end Sys2Proof.Machine
end

