-- ==== Sys2Proof/Machine/Deframer.lean ====
section
/-! DEFINITION. The deframer FD (41_deframer.md): FD_FEED, FD_RESET and the five classes of received bytes.
The test order is FD.state first, then the byte (60_exceptions.md R281). -/

namespace Sys2Proof.Machine

/-- Arm: the first frame-end byte (41_deframer.md R141), and the one that re-arms (R144). -/
def State.fdArm (s : State) : State :=
  ({ s with fdState := .started, fdBuf := [] }).ret (.packet none)

/-- Discard a byte outside a frame (41_deframer.md R142). -/
def State.fdDiscard (s : State) : State := s.ret (.packet none)

/-- Complete: hand the packet out, back to the initial state (41_deframer.md R143). -/
def State.fdComplete (s : State) : State :=
  (({ s with fdState := .idle, fdBuf := [] }).emit (.pkt s.fdBuf)).ret (.packet (some s.fdBuf))

/-- Arm the escape; the escape byte is not stored (41_deframer.md R145). -/
def State.fdArmEscape (s : State) : State := ({ s with fdState := .escape }).ret (.packet none)

/-- `append(b)` and on to STARTED (41_deframer.md R146 to R149); with a full buffer X_FD_OVERFLOW and no change
(R156). DEDUCED (log 17): a buffer is full when its length is not below BUF_CAP. -/
def State.fdAppend (s : State) (b : Byte) : State :=
  match s.cfg.bufCap with
  | none => ({ s with fdState := .started, fdBuf := s.fdBuf ++ [b] }).ret (.packet none)
  | some cap =>
    if s.fdBuf.length < cap then
      ({ s with fdState := .started, fdBuf := s.fdBuf ++ [b] }).ret (.packet none)
    else s.raise (.fdOverflow cap)

/-- A frame-end byte inside a frame: complete with a non-empty buffer, else re-arm
(41_deframer.md R143, R144). -/
def State.fdEndInFrame (s : State) : State :=
  if s.fdBuf = [] then s.fdArm else s.fdComplete

/-- The received byte 0xC0 (41_deframer.md R141, R143, R144, R150). -/
def State.fdEnd (s : State) : State :=
  match s.fdState with
  | .idle => s.fdArm
  | .started => s.fdEndInFrame
  | .escape =>
    match s.cfg.escPolicy with
    | .literal => s.fdAppend endByte
    | .endFirst => s.fdEndInFrame

/-- The received byte 0xDB (41_deframer.md R142, R145, R149). -/
def State.fdEsc (s : State) : State :=
  match s.fdState with
  | .idle => s.fdDiscard
  | .started => s.fdArmEscape
  | .escape => s.fdAppend escByte

/-- The received byte 0xDC (41_deframer.md R142, R146, R147). -/
def State.fdEscEnd (s : State) : State :=
  match s.fdState with
  | .idle => s.fdDiscard
  | .started => s.fdAppend escEndByte
  | .escape => s.fdAppend endByte

/-- The received byte 0xDD (41_deframer.md R142, R146, R148). -/
def State.fdEscEsc (s : State) : State :=
  match s.fdState with
  | .idle => s.fdDiscard
  | .started => s.fdAppend escEscByte
  | .escape => s.fdAppend escByte

/-- Any other received byte (41_deframer.md R142, R146, R149). -/
def State.fdData (s : State) (b : Byte) : State :=
  match s.fdState with
  | .idle => s.fdDiscard
  | .started => s.fdAppend b
  | .escape => s.fdAppend b

/-- FD_FEED: classify the byte, rows top to bottom (30_encoding.md R93), and act (41_deframer.md R140). -/
def State.fdFeed (s : State) (b : Byte) : State :=
  if b = endByte then s.fdEnd
  else if b = escByte then s.fdEsc
  else if b = escEndByte then s.fdEscEnd
  else if b = escEscByte then s.fdEscEsc
  else s.fdData b

/-- FD.END. -/
def execFdEnd (s : State) : Out := .next s.fdEnd

/-- FD.ESC. -/
def execFdEsc (s : State) : Out := .next s.fdEsc

/-- FD.ESC_END. -/
def execFdEscEnd (s : State) : Out := .next s.fdEscEnd

/-- FD.ESC_ESC. -/
def execFdEscEsc (s : State) : Out := .next s.fdEscEsc

/-- FD.DATA. For a byte that is not of this class see log 25. -/
def execFdData (b : Byte) (s : State) : Out := .next (s.fdData b)

/-- FD_FEED (41_deframer.md R140). -/
def execFdFeed (b : Byte) (s : State) : Out := .next (s.fdFeed b)

/-- FD_RESET (41_deframer.md R151): no packet, no event. -/
def execFdReset (s : State) : Out := .next (({ s with fdState := .idle, fdBuf := [] }).ret .done)

end Sys2Proof.Machine
end

