-- ==== Sys2Proof/Machine/Framer.lean ====
section
/-! DEFINITION. The framer FE (40_framer.md): ENCODE and the three classes of payload bytes. -/

namespace Sys2Proof.Machine

/-- `stuff(p)`: the wire bytes of one payload byte, rows top to bottom (30_encoding.md R92). -/
def stuff (p : Byte) : List Byte :=
  if p = endByte then [escByte, escEndByte]
  else if p = escByte then [escByte, escEscByte]
  else [p]

/-- The stuffed body of a payload, in index order (40_framer.md R120). -/
def stuffAll : List Byte → List Byte
  | [] => []
  | p :: ps => stuff p ++ stuffAll ps

/-- The frame of a payload (30_encoding.md R90, 40_framer.md R120). -/
def frame (payload : List Byte) : List Byte := endByte :: (stuffAll payload ++ [endByte])

/-- FE.END (40_framer.md R122). -/
def execFeEnd (s : State) : Out := .next (s.ret (.bytes [escByte, escEndByte]))

/-- FE.ESC (40_framer.md R123). -/
def execFeEsc (s : State) : Out := .next (s.ret (.bytes [escByte, escEscByte]))

/-- FE.LIT (40_framer.md R121). For a byte that is not of this class see log 25. -/
def execFeLit (p : Byte) (s : State) : Out := .next (s.ret (.bytes [p]))

/-- ENCODE (40_framer.md R120; X_BAD_OPERAND: 60_exceptions.md R278). -/
def execEncode (payload : List Byte) (s : State) : Out :=
  .next (if within s.cfg.payloadMax payload.length then s.ret (.bytes (frame payload))
         else s.raise (.badOperand payload.length))

end Sys2Proof.Machine
end

