-- ==== Sys2Proof/Machine/LineControl.lean ====
section
/-! DEFINITION. The line-control unit LC (42_line_control.md): OPEN, CLOSE, SETBAUD, FLUSH, WRITE, READ,
SETDTR, SETRTS, SETBOTH. The order of the tests is that of 60_exceptions.md R281. -/

namespace Sys2Proof.Machine

/-- A successful OPEN; neither line register is written (42_line_control.md R180, R182). -/
def State.openWith (s : State) (path : Path) (rx : List Byte) : State :=
  (({ s with lcOpen := true, lcPath := path, lcFormat := openFormat, lcBaud := defaultBaud,
             lcRx := storeRx s.cfg [] rx, lcTx := [] }).emit (.opened path)).ret .opened

/-- OPEN (42_line_control.md R180). -/
def execOpenDev (path : Path) (s : State) : Out :=
  .next (if s.lcOpen then s.raise (.alreadyOpen path)
         else if s.nextDraw.avail then s.wireTurn.openWith path s.nextDraw.rx
         else (s.wireTurn.emit (.openFail path)).ret .openFailed)

/-- CLOSE (42_line_control.md R183). -/
def execCloseDev (s : State) : Out :=
  .next (if s.lcOpen then
           (({ s with lcOpen := false, lcRx := [], lcTx := [], lcDtr := none, lcRts := none }).emit .closed).ret .done
         else s.ret .done)

/-- SETBAUD (42_line_control.md R184). -/
def execSetBaud (rate : Rate) (s : State) : Out :=
  .next (s.requireOpen .setBaud
    (if baudAccepted s.cfg.baudSet rate then
       if s.nextDraw.ioFail then s.wireTurn.raise (.io .setBaud none)
       else ((({ s.wireTurn with lcBaud := rate }).emit (.baud rate)).flushQueues).ret .done
     else s.raise (.badOperand rate.toNat)))

/-- FLUSH (42_line_control.md R185). -/
def execFlush (s : State) : Out :=
  .next (s.requireOpen .flush
    (if s.nextDraw.ioFail then s.wireTurn.raise (.io .flush none)
     else s.wireTurn.flushQueues.ret .done))

/-- The loop of WRITE (42_line_control.md R186), a point of the wire before each byte. With a full queue the
command has not returned: what is left stands in `lcWriting`, and a later step goes on with it (log 10). -/
def State.writeLoop : State → List Byte → List Byte → State
  | s, done, [] => (({ s with lcWriting := none }).emit (.tx done)).ret .done
  | s, done, b :: rest =>
    if hasRoom s.wireTurn.cfg.txFifoCap s.wireTurn.lcTx.length then
      if s.nextDraw.ioFail then
        (({ s.wireTurn with lcWriting := none }).emit (.tx done)).raise (.io .write none)
      else (s.wireTurn.pushTx b).writeLoop (done ++ [b]) rest
    else { s.wireTurn with lcWriting := some { accepted := done, remaining := b :: rest } }

/-- WRITE (42_line_control.md R186). -/
def execWrite (bytes : List Byte) (s : State) : Out :=
  .next (s.requireOpen .write (s.writeLoop [] bytes))

/-- Go on with a WRITE that has not returned: try again, never fail (42_line_control.md R186,
70_reset_and_hazards.md R318). -/
def State.resumeWrite (s : State) (w : Writing) : State := s.writeLoop w.accepted w.remaining

/-- READ once the wait is over and no failure strikes (42_line_control.md R187). -/
def State.readBytes (s : State) : State :=
  ((s.popRx (min s.lcRx.length readChunk)).emit (.rx (s.lcRx.take (min s.lcRx.length readChunk)))).ret
    (.bytes (s.lcRx.take (min s.lcRx.length readChunk)))

/-- The wait of a READ: the wire's turn, and the time it goes on (42_line_control.md R187). DEDUCED (log 11):
one draw stands for the wait and the `io` point that ends it. -/
def State.readWait (s : State) (timeout : Ms) : State :=
  { s.wireTurn with now := s.wireTurn.now + readDuration s.wireTurn.lcRx timeout s.nextDraw.extra }

/-- READ (42_line_control.md R187). -/
def execRead (timeout : Ms) (s : State) : Out :=
  .next (s.requireOpen .read
    (if s.nextDraw.ioFail then (s.readWait timeout).raise (.io .read none)
     else (s.readWait timeout).readBytes))

/-- A line write with its `io` point; a failing write has no effect (42_line_control.md R188, R189, R193).
`f` is the fault it raises, and `after` what follows a write that succeeds. -/
def State.lineCommand (s : State) (l : Line) (v : Level) (f : BlockFault) (after : State → State) : State :=
  if s.nextDraw.ioFail then s.wireTurn.raise f else after (s.wireTurn.writeLine l v)

/-- SETDTR (42_line_control.md R188). -/
def execSetDtr (v : Level) (s : State) : Out :=
  .next (s.requireOpen .setDtr (s.lineCommand .dtr v (.io .setDtr none) (fun t => t.ret .done)))

/-- SETRTS (42_line_control.md R189). -/
def execSetRts (v : Level) (s : State) : Out :=
  .next (s.requireOpen .setRts (s.lineCommand .rts v (.io .setRts none) (fun t => t.ret .done)))

/-- The two writes of SETBOTH in one order; the second is not attempted after a fault of the first
(42_line_control.md R190). DEDUCED (log 14): the fault names SETBOTH. -/
def State.twoLines (s : State) (l : Line) (v : Level) (l' : Line) (v' : Level) : State :=
  s.lineCommand l v (.io .setBoth none)
    (fun t => t.lineCommand l' v' (.io .setBoth none) (fun u => u.ret .done))

/-- SETBOTH (42_line_control.md R190). -/
def execSetBoth (d r : Level) (s : State) : Out :=
  .next (s.requireOpen .setBoth
    (match s.cfg.bothOrder with
     | .dtrFirst => s.twoLines .dtr d .rts r
     | .rtsFirst => s.twoLines .rts r .dtr d))

end Sys2Proof.Machine
end

