-- ==== Sys2Proof/Machine/Sequencer.lean ====
section
/-! DEFINITION. The reset sequencer RS, its ROM, and the timer's command (43_reset_sequencer.md): WAIT,
SELECT, RUN_ENTER, RUN_HARD. -/

namespace Sys2Proof.Machine

/-- The ROM (10_state.md R36): SEQ_USB (43_reset_sequencer.md R223), SEQ_BRIDGE (R224), SEQ_HARD (R225), the
writes of a comma pair in the written order (R238). -/
def rom : SeqName → List RomEntry
  | .seqUsb =>
    [.setRts false, .setDtr false, .wait 100,
     .setDtr true, .setRts false, .wait 100,
     .setRts true, .setDtr false, .setRts true, .wait 100,
     .setDtr false, .setRts false, .wait 50]
  | .seqBridge =>
    [.setDtr false, .setRts true, .wait 100,
     .setDtr true, .setRts false, .wait 50,
     .setDtr false, .wait 50]
  | .seqHard =>
    [.setDtr false, .wait 50, .setRts true, .wait 100, .setRts false, .wait 100]

/-- The event of an entry that is performed: that of the command of the same name (43_reset_sequencer.md R228). -/
def entryEvent : RomEntry → Event
  | .setDtr v => .line .dtr v
  | .setRts v => .line .rts v
  | .wait n => .wait n

/-- WAIT (43_reset_sequencer.md R220), open or closed. -/
def execWait (n : Ms) (s : State) : Out :=
  .next (if fitsTimer s.cfg.timerW n then (s.waitFor n).ret .done else s.raise (.badOperand n))

/-- SELECT (43_reset_sequencer.md R222): write-once, no event. -/
def execSelect (vid pid : Option DevId) (s : State) : Out :=
  .next (match s.rsStrategy with
    | none => ({ s with rsStrategy := some (strategyOf vid pid) }).ret .done
    | some held => s.raise (.strategyLocked held))

/-- Perform one entry and go on with `after`, or stop at its fault; a fault leaves `rsSeq` and `rsPc` at the
failing entry (43_reset_sequencer.md R228, R229). -/
def State.performEntry (s : State) (q : SeqName) (e : RomEntry) (after : State → State) : State :=
  match e with
  | .setDtr v => s.lineCommand .dtr v (.io .setDtr (some (q, s.rsPc))) after
  | .setRts v => s.lineCommand .rts v (.io .setRts (some (q, s.rsPc))) after
  | .wait n => if fitsTimer s.cfg.timerW n then after (s.waitFor n) else s.raise (.badOperand n)

/-- The entries still to perform, in index order, each to its end before the next
(43_reset_sequencer.md R228). -/
def State.runEntries : State → SeqName → List RomEntry → State
  | s, _, [] => ({ s with rsSeq := none, rsPc := 0 }).ret .done
  | s, q, e :: es => s.performEntry q e (fun t => ({ t with rsPc := t.rsPc + 1 }).runEntries q es)

/-- `RS.seq <- q; run(q)` (43_reset_sequencer.md R228). -/
def State.runSeq (s : State) (q : SeqName) : State :=
  ({ s with rsSeq := some q, rsPc := 0 }).runEntries q (rom q)

/-- RUN_ENTER (43_reset_sequencer.md R226). -/
def execRunEnter (s : State) : Out :=
  .next (s.requireOpen .runEnter
    (match s.rsStrategy with
     | none => s.raise .noStrategy
     | some strat => s.runSeq (entrySeq strat)))

/-- RUN_HARD (43_reset_sequencer.md R227). -/
def execRunHard (s : State) : Out :=
  .next (s.requireOpen .runHard (s.runSeq .seqHard))

end Sys2Proof.Machine
end

