-- ==== Sys2Proof/Machine/Dispatch.lean ====
section
/-! DEFINITION. One arm per constructor of `Instr`, one meaning per arm. -/

namespace Sys2Proof.Machine

def exec (i : Instr) (s : State) : Host.Outcome State Fault Refusal :=
  match i with
  -- format P, 40_framer.md
  | .feEnd => Sys2Proof.Machine.execFeEnd s
  | .feEsc => Sys2Proof.Machine.execFeEsc s
  | .feLit p => Sys2Proof.Machine.execFeLit p s
  -- format W, 41_deframer.md
  | .fdEnd => Sys2Proof.Machine.execFdEnd s
  | .fdEsc => Sys2Proof.Machine.execFdEsc s
  | .fdEscEnd => Sys2Proof.Machine.execFdEscEnd s
  | .fdEscEsc => Sys2Proof.Machine.execFdEscEsc s
  | .fdData b => Sys2Proof.Machine.execFdData b s
  -- format CMD, 30_encoding.md R97
  | .encode payload => Sys2Proof.Machine.execEncode payload s
  | .fdFeed b => Sys2Proof.Machine.execFdFeed b s
  | .fdReset => Sys2Proof.Machine.execFdReset s
  | .openDev path => Sys2Proof.Machine.execOpenDev path s
  | .closeDev => Sys2Proof.Machine.execCloseDev s
  | .setBaud rate => Sys2Proof.Machine.execSetBaud rate s
  | .flush => Sys2Proof.Machine.execFlush s
  | .write bytes => Sys2Proof.Machine.execWrite bytes s
  | .read timeout => Sys2Proof.Machine.execRead timeout s
  | .setDtr v => Sys2Proof.Machine.execSetDtr v s
  | .setRts v => Sys2Proof.Machine.execSetRts v s
  | .setBoth d r => Sys2Proof.Machine.execSetBoth d r s
  | .wait n => Sys2Proof.Machine.execWait n s
  | .select vid pid => Sys2Proof.Machine.execSelect vid pid s
  | .runEnter => Sys2Proof.Machine.execRunEnter s
  | .runHard => Sys2Proof.Machine.execRunHard s

end Sys2Proof.Machine
end

