-- ==== Sys2Proof/Machine/Fetch.lean ====
section
/-! DEFINITION. What a step does with the turn it finds (log 3): a host turn is decoded and run, a reserved
command code raises X_BAD_CMD (60_exceptions.md R271), bytes that are no command are refused (log 7). -/

namespace Sys2Proof.Machine

/-- Run what the host presents at a port. -/
def runPresented (f : Format) (bytes : List Byte) (s : State) : Out :=
  match decode f bytes with
  | .ok i => exec i s
  | .reserved c => .next (s.raise (.badCmd c))
  | .malformed => .refused .malformedCommand

/-- The host's part of a step: a WRITE that has not returned goes on, and the next command waits for it
(00_scope.md R10); else the turn is run. -/
def hostTurn (f : Format) (bytes : List Byte) (rest : List Input) (s : State) : Out :=
  match s.lcWriting with
  | some w => .next (s.resumeWrite w)
  | none => runPresented f bytes (s.issuing f bytes rest)

/-- No turn is given: a WRITE that has not returned goes on; else the block waits for its next command and
nothing changes (60_exceptions.md R282; log 21). -/
def idleTurn (s : State) : Out :=
  match s.lcWriting with
  | some w => .next (s.resumeWrite w)
  | none => .next s

/-- The next turn of the surroundings. -/
def takeTurn (s : State) : Out :=
  match s.env.input with
  | [] => idleTurn s
  | .host f bytes :: rest => hostTurn f bytes rest s
  | .wire w :: rest => .next ((s.withInput rest).wireStep w)
  | .blockReset :: rest => .next (s.withInput rest).blockReset

end Sys2Proof.Machine
end

