-- ==== Sys2Proof/Machine/Step.lean ====
section
/-! DEFINITION. The step: one turn of the surroundings (log 3). -/

namespace Sys2Proof.Machine

/-- One step of the machine. -/
def step (s : State) : Host.Outcome State Fault Refusal := takeTurn s

/-- The state whose very next step runs the instruction of an opcode-table word: the host presents it as its
next turn (log 3, 5). -/
def State.withFetchWord (s : State) (nbits w : Nat) : State :=
  s.present (tableItem nbits w).1 (tableItem nbits w).2

end Sys2Proof.Machine
end

