-- ==== Sys2Proof/Machine/Pseudo.lean ====
section
/-! DEFINITION. The pseudo-instructions of 30_encoding.md R102 as the commands they expand to, and the issuing
of a list of commands one after the other (00_scope.md R10). They have no code and no row of their own. -/

namespace Sys2Proof.Machine

/-- Perform commands in order, each to its end before the next. -/
def issue : List Instr → State → Out
  | [], s => .next s
  | i :: is, s =>
    match exec i s with
    | .next t => issue is t
    | .fault f => .fault f
    | .refused r => .refused r

/-- Add what an FD_FEED returned to a list of packets. -/
def addPacket (out : List (List Byte)) : Result → List (List Byte)
  | .packet (some p) => out ++ [p]
  | .packet none => out
  | .done => out
  | .bytes _ => out
  | .opened => out
  | .openFailed => out
  | .fault _ => out

/-- FD_FEEDN with the packets returned so far: a fold of FD_FEED (41_deframer.md R152, R153).
DESIGN CHOICE (log 22): the bytes after one whose FD_FEED raises X_FD_OVERFLOW are fed as well. -/
def feedFrom (out : List (List Byte)) : List Byte → State → List (List Byte) × State
  | [], s => (out, s)
  | b :: bs, s => feedFrom (addPacket out (s.fdFeed b).result) bs (s.fdFeed b)

/-- FD_FEEDN chunk (41_deframer.md R152): the packets returned, in order, and the state after. -/
def feedN (chunk : List Byte) (s : State) : List (List Byte) × State := feedFrom [] chunk s

/-- SEND payload is `WRITE (ENCODE payload)` (40_framer.md R129). -/
def send (payload : List Byte) (s : State) : Out :=
  match exec (.encode payload) s with
  | .next t =>
    match t.result with
    | .bytes framed => exec (.write framed) t
    | _ => .next t
  | .fault f => .fault f
  | .refused r => .refused r

/-- RECV t is `FD_FEEDN (READ t)` (41_deframer.md R152). -/
def recv (timeout : Ms) (s : State) : List (List Byte) × Out :=
  match exec (.read timeout) s with
  | .next t =>
    match t.result with
    | .bytes chunk => ((feedN chunk t).1, .next (feedN chunk t).2)
    | _ => ([], .next t)
  | .fault f => ([], .fault f)
  | .refused r => ([], .refused r)

end Sys2Proof.Machine
end

