-- ==== Sys2Proof/Safety.lean ====
section
/-! DEFINITION. What counts as a good run (60_exceptions.md R270, 70_reset_and_hazards.md R306), the premise
of a well-escaped stream (41_deframer.md R157), and the invariant of the machine. -/

namespace Sys2Proof.Machine

/-- An event that records a fault. -/
def Event.isFault : Event → Bool
  | .opened _ => false
  | .openFail _ => false
  | .closed => false
  | .baud _ => false
  | .flush => false
  | .line _ _ => false
  | .wait _ => false
  | .tx _ => false
  | .rx _ => false
  | .pkt _ => false
  | .fault _ => true

/-- An event that is a write of a line. -/
def Event.isLineWrite : Event → Bool
  | .opened _ => false
  | .openFail _ => false
  | .closed => false
  | .baud _ => false
  | .flush => false
  | .line _ _ => true
  | .wait _ => false
  | .tx _ => false
  | .rx _ => false
  | .pkt _ => false
  | .fault _ => false

/-- "`trace` holds no `EvFault`" (60_exceptions.md R270 (a)). -/
def State.noFault (s : State) : Bool := s.trace.all (fun e => !e.isFault)

/-- The host issues no further command in this run, which goes to the next block reset or to the end of the
turns; the wire may still act (70_reset_and_hazards.md R306). -/
def noCommandLeft : List Input → Bool
  | [] => true
  | .host _ _ :: _ => false
  | .wire _ :: rest => noCommandLeft rest
  | .blockReset :: _ => true

/-- The last command issued in this run is CLOSE. -/
def State.lastIsClose (s : State) : Bool :=
  match s.env.issued.getLast? with
  | none => false
  | some c => decide (decode c.1 c.2 = .ok .closeDev)

/-- The run is finished: the last command the host issues has returned (no WRITE is waiting and none is to come),
and that command is CLOSE (70_reset_and_hazards.md R306). That the connection is then closed follows: the
invariant says so (`closedByClose`). -/
def State.finished (s : State) : Bool :=
  noCommandLeft s.env.input && s.lcWriting.isNone && s.lastIsClose

/-- A finished run that is good (70_reset_and_hazards.md R306). -/
def State.goodRun (s : State) : Bool := s.finished && s.noFault

/-- A well-escaped stream: fed from this state, the deframer is never in ESCAPE when a byte other than 0xDC or
0xDD arrives (41_deframer.md R157). -/
def State.wellEscaped : State → List Byte → Bool
  | _, [] => true
  | s, b :: bs =>
    (s.fdState != .escape || b == escEndByte || b == escEscByte) && (s.fdFeed b).wellEscaped bs

/-- No `io_fail` strikes a line write of these entries: entry `k` meets the `k`-th draw to come, and the draw of
a WAIT is no `io` point (42_line_control.md R193). -/
def State.lineWritesSucceed (s : State) (es : List RomEntry) : Prop :=
  ∀ k e, es[k]? = some e → (∀ n, e ≠ .wait n) → (s.drawAt k).ioFail = false

/-- The invariant of the machine, kept by every step. -/
structure State.Inv (s : State) : Prop where
  /-- TIMER_W holds every delay of the ROM (43_reset_sequencer.md R221) -/
  timerWide : 7 ≤ s.cfg.timerW
  /-- in IDLE the buffer is empty (10_state.md R24 (a)) -/
  idleEmpty : s.fdState = .idle → s.fdBuf = []
  /-- the buffer is within BUF_CAP (10_state.md R24 (c)) -/
  bufFits : within s.cfg.bufCap s.fdBuf.length = true
  /-- the queues are within their capacities (10_state.md R20) -/
  rxFits : within s.cfg.rxFifoCap s.lcRx.length = true
  txFits : within s.cfg.txFifoCap s.lcTx.length = true
  /-- the line format is constant while open (10_state.md R27) -/
  formatConstant : s.lcOpen = true → s.lcFormat = openFormat
  /-- while closed the queues are empty, both lines unknown, and no WRITE is waiting (42_line_control.md R183) -/
  closedEmpty : s.lcOpen = false →
    s.lcRx = [] ∧ s.lcTx = [] ∧ s.lcDtr = none ∧ s.lcRts = none ∧ s.lcWriting = none
  /-- after CLOSE, with no command after it, the connection is closed (70_reset_and_hazards.md R306) -/
  closedByClose : s.lastIsClose = true → s.lcOpen = false
  /-- a WRITE that waits has bytes left (42_line_control.md R186) -/
  writingLeft : ∀ w, s.lcWriting = some w → w.remaining ≠ []
  /-- the timer is 0 between commands (10_state.md R35) -/
  timerIdle : s.tmRem = 0
  /-- the step counter is 0 without a sequence (10_state.md R34) -/
  seqNone : s.rsSeq = none → s.rsPc = 0
  /-- a sequence that stopped, stopped at one of its line writes (43_reset_sequencer.md R229) -/
  seqStopped : ∀ q, s.rsSeq = some q → ∃ e, (rom q)[s.rsPc]? = some e ∧ ∀ n, e ≠ .wait n

end Sys2Proof.Machine
end

