-- ==== Sys2Proof/Certificates/Slice0/Obligations.lean ====
section
/-! DEFINITION. The statements for the provers. In all of them the fields `result`, `env`, `cfg` and
`lcWriting` are the model's own (log 8, 1, 3, 12, 2, 10): a clause about one of them is the model's choice of
where a value the spec gives to the host, to the wire or to a parameter is held, and cites no rule. A draw
(`s.nextDraw`, `s.drawAt k`) is a free value: every statement holds for every value of it. `s.wireTurn` is the
state after the wire has acted at a point of a command; what it can do is said by `WireTurnTouchesQueuesOnly`. -/

open Sys2Proof Sys2Proof.Machine

/-! ### Encoding -/

/-- Words written out from the tables of 30_encoding.md R91, R92, R93, R97 decode to their instructions. The
bytes of the operands are the model's choice (log 4). -/
def Obligations.OpcodeWordsDecode : Prop :=
  decode .payload [0xC0] = .ok .feEnd ∧ decode .payload [0xDB] = .ok .feEsc ∧
  decode .payload [0xDC] = .ok (.feLit 0xDC) ∧
  decode .wire [0xC0] = .ok .fdEnd ∧ decode .wire [0xDB] = .ok .fdEsc ∧
  decode .wire [0xDC] = .ok .fdEscEnd ∧ decode .wire [0xDD] = .ok .fdEscEsc ∧
  decode .wire [0x41] = .ok (.fdData 0x41) ∧
  decode .command [0x00, 0xC0, 0x01] = .ok (.encode [0xC0, 0x01]) ∧
  decode .command [0x05, 0x00, 0x08, 0x07, 0x00] = .ok (.setBaud 460800) ∧
  decode .command [0x09, 0x01] = .ok (.setDtr true) ∧
  decode .command [0x0C, 0x64] = .ok (.wait 100) ∧
  decode .command [0x0D, 0x01, 0x3A, 0x30, 0x01, 0x01, 0x10] = .ok (.select (some 0x303A) (some 0x1001)) ∧
  decode .command [0x0F] = .ok .runHard ∧
  decode .command [0x10] = .reserved 0x10

/-- Decode and encode agree for every well-formed instruction, with every operand. -/
def Obligations.DecodeOfEncode : Prop :=
  ∀ i : Instr, i.wellFormed = true → decode i.format (encode i) = .ok i

/-- Whatever a decoder reads, from any bytes, is a well-formed instruction of that decoder's format. -/
def Obligations.DecodedIsWellFormed : Prop :=
  ∀ (f : Format) (bs : List Byte) (i : Instr), decode f bs = .ok i → i.wellFormed = true ∧ i.format = f

/-- R92, R121, R122, R123: the classes of payload bytes, rows top to bottom, and the wire bytes that the rows
FE.END, FE.ESC and FE.LIT return; nothing else changes. -/
def Obligations.PayloadClassesStuff : Prop :=
  (∀ p : Byte,
    decode .payload [p] = .ok (if p = 0xC0 then .feEnd else if p = 0xDB then .feEsc else .feLit p)) ∧
  ∀ s : State,
    exec .feEnd s = .next { s with result := .bytes [0xDB, 0xDC] } ∧
    exec .feEsc s = .next { s with result := .bytes [0xDB, 0xDD] } ∧
    ∀ p : Byte, p ≠ 0xC0 → p ≠ 0xDB → exec (.feLit p) s = .next { s with result := .bytes [p] }

/-- A step whose next turn is the host's, with no WRITE waiting, runs the decoded instruction on the state
without that turn and with the command added to the commands of the run; a word of the opcode table presented by
`withFetchWord` is run by the very next step. The turn and its place in State are the model's (log 3), and so is
the record `issued` (log 12). -/
def Obligations.StepRunsDecoded : Prop :=
  (∀ (s : State) (f : Format) (bs : List Byte) (rest : List Input) (i : Instr),
    decode f bs = .ok i → s.lcWriting = none → s.env.input = .host f bs :: rest →
      step s = exec i { s with
        env := { s.env with input := rest, issued := s.env.issued ++ [(f, bs)] } }) ∧
  (∀ (s : State) (nbits w : Nat) (i : Instr),
    decodeTableWord nbits w = some i →
      step (s.withFetchWord nbits w) = exec i { s with
        lcWriting := none, env := { s.env with issued := s.env.issued ++ [tableItem nbits w] } })

/-- A reserved command code raises X_BAD_CMD(code) and changes nothing but the trace (the spec's own decisions
D2, D18); the turn is used up (log 3) and recorded as issued (log 12). -/
def Obligations.ReservedCodeRaisesBadCmd : Prop :=
  ∀ (s : State) (c : Byte) (operands : List Byte) (rest : List Input),
    0x10 ≤ c.toNat → s.lcWriting = none → s.env.input = .host .command (c :: operands) :: rest →
      decode .command (c :: operands) = .reserved c ∧
      step s = .next { s with
        trace := s.trace ++ [.fault (.badCmd c)], result := .fault (.badCmd c),
        env := { s.env with
          input := rest, issued := s.env.issued ++ [(.command, c :: operands)] } }

/-! ### The framer -/

/-- ENCODE returns the frame: END, the stuffed bytes of the payload in index order, END; nothing else changes.
A payload longer than a finite PAYLOAD_MAX raises X_BAD_OPERAND(its length) instead (the spec's own decision
D30). -/
def Obligations.EncodeReturnsFrame : Prop :=
  ∀ (payload : List Byte) (s : State),
    (within s.cfg.payloadMax payload.length = true →
      exec (.encode payload) s =
        .next { s with
          result := .bytes ([0xC0] ++ payload.flatMap
            (fun p => if p = 0xC0 then [0xDB, 0xDC] else if p = 0xDB then [0xDB, 0xDD] else [p]) ++ [0xC0]) }) ∧
    (∀ bound, s.cfg.payloadMax = some bound → bound < payload.length →
      exec (.encode payload) s =
        .next { s with
          trace := s.trace ++ [.fault (.badOperand payload.length)], result := .fault (.badOperand payload.length) })

/-- R126: equal operands give equal results, in every state, and the command changes nothing in the block. -/
def Obligations.EncodeIsPure : Prop :=
  ∀ payload : List Byte, ∃ out : List Byte, ∀ s : State, within s.cfg.payloadMax payload.length = true →
    exec (.encode payload) s = .next { s with result := .bytes out }

/-- The length law of R125, a consequence the spec derives from R120. -/
def Obligations.FrameLengthLaw : Prop :=
  ∀ payload : List Byte,
    (frame payload).length =
      payload.length + (payload.filter (fun p => p = 0xC0 || p = 0xDB)).length + 2 ∧
    payload.length + 2 ≤ (frame payload).length ∧ (frame payload).length ≤ 2 * payload.length + 2

/-- The alphabet of a frame, R127, a consequence the spec derives from R120 to R123: END at the two ends and
nowhere else, every ESC followed by ESC_END or ESC_ESC (so ESC is never the last byte of the body). -/
def Obligations.FrameAlphabet : Prop :=
  ∀ payload : List Byte,
    (frame payload)[0]? = some 0xC0 ∧ (frame payload)[(frame payload).length - 1]? = some 0xC0 ∧
    2 ≤ (frame payload).length ∧
    (∀ k : Nat, (frame payload)[k]? = some 0xC0 → k = 0 ∨ k = (frame payload).length - 1) ∧
    (∀ k : Nat, (frame payload)[k]? = some 0xDB →
      (frame payload)[k + 1]? = some 0xDC ∨ (frame payload)[k + 1]? = some 0xDD)

/-- ENCODE is injective, R128, a consequence the spec derives from R121 to R123. -/
def Obligations.FrameIsInjective : Prop :=
  ∀ p q : List Byte, frame p = frame q → p = q

/-! ### The deframer -/

/-- FD_FEED acts as the class instruction of its byte (R93, R140). -/
def Obligations.FeedActsAsItsClass : Prop :=
  ∀ (b : Byte) (s : State),
    exec (.fdFeed b) s = exec (decodeWireByte b) s ∧
    decode .wire [b] = .ok (if b = 0xC0 then .fdEnd else if b = 0xDB then .fdEsc
      else if b = 0xDC then .fdEscEnd else if b = 0xDD then .fdEscEsc else .fdData b)

/-- R141 and R142: in IDLE the frame-end byte arms, every other byte is discarded, the special ones included. -/
def Obligations.FeedInIdle : Prop :=
  ∀ s : State, s.fdState = .idle →
    (∀ i, i = .fdFeed 0xC0 ∨ i = .fdEnd →
      exec i s = .next { s with fdState := .started, fdBuf := [], result := .packet none }) ∧
    (∀ b : Byte, b ≠ 0xC0 → exec (.fdFeed b) s = .next { s with result := .packet none }) ∧
    (∀ i, i = .fdEsc ∨ i = .fdEscEnd ∨ i = .fdEscEsc ∨ (∃ b, isDataByte b = true ∧ i = .fdData b) →
      exec i s = .next { s with result := .packet none })

/-- R143 and R145: in STARTED a frame-end byte with a non-empty buffer completes the packet and resets the
deframer to its initial state; the escape byte arms the escape and is not stored. -/
def Obligations.FeedStartedCompletesOrEscapes : Prop :=
  ∀ s : State, s.fdState = .started →
    (s.fdBuf ≠ [] → ∀ i, i = .fdFeed 0xC0 ∨ i = .fdEnd →
      exec i s = .next { s with
        fdState := .idle, fdBuf := [], trace := s.trace ++ [.pkt s.fdBuf], result := .packet (some s.fdBuf) }) ∧
    (∀ i, i = .fdFeed 0xDB ∨ i = .fdEsc →
      exec i s = .next { s with fdState := .escape, result := .packet none })

/-- In STARTED a frame-end byte with an empty buffer re-arms: the spec's own decision D6 (R144). Every byte but
END and ESC is appended as it is (R146, derived by the spec), with room in the buffer; without room see
`FullBufferOverflows`. -/
def Obligations.FeedStartedRearmsOrAccumulates : Prop :=
  ∀ s : State, s.fdState = .started →
    (s.fdBuf = [] → ∀ i, i = .fdFeed 0xC0 ∨ i = .fdEnd →
      exec i s = .next { s with fdState := .started, fdBuf := [], result := .packet none }) ∧
    (hasRoom s.cfg.bufCap s.fdBuf.length = true →
      (∀ b : Byte, b ≠ 0xC0 → b ≠ 0xDB →
        exec (.fdFeed b) s =
          .next { s with fdState := .started, fdBuf := s.fdBuf ++ [b], result := .packet none }) ∧
      exec .fdEscEnd s = .next { s with fdState := .started, fdBuf := s.fdBuf ++ [0xDC], result := .packet none } ∧
      exec .fdEscEsc s = .next { s with fdState := .started, fdBuf := s.fdBuf ++ [0xDD], result := .packet none } ∧
      (∀ b : Byte, isDataByte b = true →
        exec (.fdData b) s = .next { s with fdState := .started, fdBuf := s.fdBuf ++ [b], result := .packet none }))

/-- In ESCAPE, 0xDC appends 0xC0 and 0xDD appends 0xDB (R147, R148, derived by the spec), with room in the
buffer; without room see `FullBufferOverflows`. -/
def Obligations.FeedEscapeUnescapes : Prop :=
  ∀ s : State, s.fdState = .escape → hasRoom s.cfg.bufCap s.fdBuf.length = true →
    (∀ i, i = .fdFeed 0xDC ∨ i = .fdEscEnd →
      exec i s = .next { s with fdState := .started, fdBuf := s.fdBuf ++ [0xC0], result := .packet none }) ∧
    (∀ i, i = .fdFeed 0xDD ∨ i = .fdEscEsc →
      exec i s = .next { s with fdState := .started, fdBuf := s.fdBuf ++ [0xDB], result := .packet none })

/-- In ESCAPE every follower but 0xDC, 0xDD and 0xC0 is appended unchanged, ESC itself included, and the escape
byte is dropped (R149); on a full buffer X_FD_OVERFLOW instead (R156, R277, the spec's own decision D4). -/
def Obligations.EscapePassesUnknownThrough : Prop :=
  ∀ (s : State) (b : Byte), s.fdState = .escape → b ≠ 0xDC → b ≠ 0xDD → b ≠ 0xC0 →
    (hasRoom s.cfg.bufCap s.fdBuf.length = true →
      exec (.fdFeed b) s =
        .next { s with fdState := .started, fdBuf := s.fdBuf ++ [b], result := .packet none }) ∧
    (∀ cap, s.cfg.bufCap = some cap → s.fdBuf.length = cap →
      exec (.fdFeed b) s =
        .next { s with trace := s.trace ++ [.fault (.fdOverflow cap)], result := .fault (.fdOverflow cap) }) ∧
    exec .fdEsc s = exec (.fdFeed 0xDB) s ∧
    (isDataByte b = true → exec (.fdData b) s = exec (.fdFeed b) s)

/-- In ESCAPE the byte 0xC0 is settled by ESC_FOLLOWER_POLICY, the spec's own decision D5 (R150). -/
def Obligations.EndInEscapeFollowsPolicy : Prop :=
  ∀ (s : State) (i : Instr), s.fdState = .escape → i = .fdFeed 0xC0 ∨ i = .fdEnd →
    (s.cfg.escPolicy = .literal → hasRoom s.cfg.bufCap s.fdBuf.length = true →
      exec i s = .next { s with fdState := .started, fdBuf := s.fdBuf ++ [0xC0], result := .packet none }) ∧
    (s.cfg.escPolicy = .endFirst → s.fdBuf ≠ [] →
      exec i s = .next { s with
        fdState := .idle, fdBuf := [], trace := s.trace ++ [.pkt s.fdBuf], result := .packet (some s.fdBuf) }) ∧
    (s.cfg.escPolicy = .endFirst → s.fdBuf = [] →
      exec i s = .next { s with fdState := .started, fdBuf := [], result := .packet none })

/-- With a finite BUF_CAP an append to a full buffer raises X_FD_OVERFLOW and consumes nothing (R156, R277, the
spec's own decision D4). -/
def Obligations.FullBufferOverflows : Prop :=
  ∀ (s : State) (cap : Nat) (b : Byte), s.cfg.bufCap = some cap → s.fdBuf.length = cap →
    (s.fdState = .started ∧ b ≠ 0xC0 ∧ b ≠ 0xDB) ∨ (s.fdState = .escape ∧ b ≠ 0xC0) ∨
      (s.fdState = .escape ∧ b = 0xC0 ∧ s.cfg.escPolicy = .literal) →
    exec (.fdFeed b) s =
      .next { s with trace := s.trace ++ [.fault (.fdOverflow cap)], result := .fault (.fdOverflow cap) }

/-- R151: FD_RESET puts the deframer in IDLE with an empty buffer, in any state, with no packet and no event. -/
def Obligations.FdResetClears : Prop :=
  ∀ s : State, exec .fdReset s = .next { s with fdState := .idle, fdBuf := [], result := .done }

/-- One FD_FEED changes FD.state, FD.buf and the trace only, and appends one EvPkt exactly when it returns a
packet; with an unbounded BUF_CAP it never faults (R140, R155; D4). -/
def Obligations.FeedIsTotalAndLocal : Prop :=
  ∀ (s : State) (b : Byte), s.cfg.bufCap = none → ∃ t,
    exec (.fdFeed b) s = .next t ∧
    t = { s with fdState := t.fdState, fdBuf := t.fdBuf, trace := t.trace, result := t.result } ∧
    ((t.result = .packet none ∧ t.trace = s.trace) ∨
     (∃ p, p ≠ [] ∧ t.result = .packet (some p) ∧ t.trace = s.trace ++ [.pkt p]))

/-- Chunk invariance, R153, a consequence the spec derives from R152: any cutting into chunks gives the same
packets in the same order and the same end state. -/
def Obligations.ChunkInvariance : Prop :=
  ∀ (chunks : List (List Byte)) (s : State),
    feedN chunks.flatten s =
      chunks.foldl (fun acc c => (acc.1 ++ (feedN c acc.2).1, (feedN c acc.2).2)) ([], s)

/-- FD_FEEDN leaves the state that its FD_FEEDs, issued one after the other, leave (R152; the fold is log 22). -/
def Obligations.FeedNIsItsFeeds : Prop :=
  ∀ (chunk : List Byte) (s : State), issue (chunk.map .fdFeed) s = .next (feedN chunk s).2

/-- The round trip, R154, a consequence the spec derives: from IDLE, or from STARTED with an empty buffer, the
frame of a non-empty payload gives exactly that payload and ends in IDLE with an empty buffer, under every
ESC_FOLLOWER_POLICY; the frame of the empty payload gives no packet and ends in STARTED. -/
def Obligations.FrameRoundTrip : Prop :=
  ∀ (payload : List Byte) (s : State),
    s.fdState = .idle ∨ s.fdState = .started → s.fdBuf = [] → within s.cfg.bufCap payload.length = true →
    (payload ≠ [] →
      feedN (frame payload) s =
        ([payload], { s with
          fdState := .idle, fdBuf := [], trace := s.trace ++ [.pkt payload], result := .packet (some payload) })) ∧
    (payload = [] →
      feedN (frame payload) s = ([], { s with fdState := .started, fdBuf := [], result := .packet none }))

/-- Resynchronisation, R155, a consequence the spec derives: from every state (in which the buffer is empty in
IDLE, R24), under either policy, two frame-end bytes lead to IDLE or STARTED with an empty buffer; after them a
frame decodes to its payload. -/
def Obligations.TwoEndsResynchronise : Prop :=
  ∀ s : State, s.cfg.bufCap = none → (s.fdState = .idle → s.fdBuf = []) →
    ((feedN [0xC0, 0xC0] s).2.fdState = .idle ∨ (feedN [0xC0, 0xC0] s).2.fdState = .started) ∧
    (feedN [0xC0, 0xC0] s).2.fdBuf = [] ∧
    ∀ payload : List Byte, payload ≠ [] → (feedN (frame payload) (feedN [0xC0, 0xC0] s).2).1 = [payload]

/-- On a well-escaped stream the policies agree, R157, a consequence the spec derives: the packets and the whole
state after are the same whatever ESC_FOLLOWER_POLICY is. -/
def Obligations.WellEscapedIgnoresPolicy : Prop :=
  ∀ (bs : List Byte) (s : State) (p : EscPolicy), s.wellEscaped bs = true →
    feedN bs { s with cfg := { s.cfg with escPolicy := p } } =
      ((feedN bs s).1, { (feedN bs s).2 with cfg := { s.cfg with escPolicy := p } })

/-- Every concatenation of frames is well-escaped from IDLE, R157, a consequence the spec derives from R127. -/
def Obligations.FramesAreWellEscaped : Prop :=
  ∀ (payloads : List (List Byte)) (s : State), s.cfg.bufCap = none → s.fdState = .idle → s.fdBuf = [] →
    s.wellEscaped (payloads.flatMap frame) = true

/-- Only FD_FEED, FD_RESET and the rows of received bytes change the deframer (R80, decision D14). -/
def Obligations.OtherCommandsLeaveDeframer : Prop :=
  ∀ (i : Instr) (s t : State), exec i s = .next t → i.format ≠ .wire → (∀ b, i ≠ .fdFeed b) → i ≠ .fdReset →
    t.fdState = s.fdState ∧ t.fdBuf = s.fdBuf

/-! ### Line control -/

/-- OPEN of a closed block that finds the device: the connection, the line format, 115200 baud, an empty transmit
queue, a drawn receive queue, EvOpen; neither line is written (R180, R181, decision D27). A closed block that
does not find it: a transient result. An open block: X_ALREADY_OPEN and no other change (R273, decision D19). -/
def Obligations.OpenOutcomes : Prop :=
  ∀ (path : Path) (s : State),
    (s.lcOpen = false → s.nextDraw.avail = true →
      exec (.openDev path) s = .next { s.wireTurn with
        lcOpen := true, lcPath := path,
        lcFormat := { dataBits := 8, parity := .noParity, stopBits := 1, flowHw := false, flowSw := false, raw := true },
        lcBaud := 115200, lcRx := storeRx s.cfg [] s.nextDraw.rx, lcTx := [],
        trace := s.trace ++ [.opened path], result := .opened }) ∧
    (s.lcOpen = false → s.nextDraw.avail = false →
      exec (.openDev path) s =
        .next { s.wireTurn with trace := s.trace ++ [.openFail path], result := .openFailed }) ∧
    (s.lcOpen = true →
      exec (.openDev path) s =
        .next { s with
          trace := s.trace ++ [.fault (.alreadyOpen path)], result := .fault (.alreadyOpen path) })

/-- R182, the open invariant: OPEN changes no line register, known or not, and appends no EvLine. -/
def Obligations.OpenNeverTouchesLines : Prop :=
  ∀ (path : Path) (s : State), ∃ t evs, exec (.openDev path) s = .next t ∧
    t.lcDtr = s.lcDtr ∧ t.lcRts = s.lcRts ∧ t.trace = s.trace ++ evs ∧ ∀ e ∈ evs, e.isLineWrite = false

/-- CLOSE of an open block releases everything and makes both lines unknown; CLOSE of a closed block changes
nothing; it never faults (R183, decisions D11, D19). -/
def Obligations.CloseCompletes : Prop :=
  ∀ s : State,
    (s.lcOpen = true → exec .closeDev s = .next { s with
      lcOpen := false, lcRx := [], lcTx := [], lcDtr := none, lcRts := none,
      trace := s.trace ++ [.closed], result := .done }) ∧
    (s.lcOpen = false → exec .closeDev s = .next { s with result := .done })

/-- SETBAUD of an accepted rate: the rate, then the flush, or X_IO (R184, decisions D14, D15, D18). A rate
outside BAUD_SET raises X_BAD_OPERAND and changes nothing else (R278); the default set is every rate but 0. -/
def Obligations.SetBaudCompletes : Prop :=
  (∀ (rate : Rate) (s : State), s.lcOpen = true →
    (baudAccepted s.cfg.baudSet rate = true → s.nextDraw.ioFail = false →
      exec (.setBaud rate) s = .next { s.wireTurn with
        lcBaud := rate, lcRx := [], lcTx := [], trace := s.trace ++ [.baud rate, .flush], result := .done }) ∧
    (baudAccepted s.cfg.baudSet rate = true → s.nextDraw.ioFail = true →
      exec (.setBaud rate) s = .next { s.wireTurn with
        trace := s.trace ++ [.fault (.io .setBaud none)], result := .fault (.io .setBaud none) }) ∧
    (baudAccepted s.cfg.baudSet rate = false →
      exec (.setBaud rate) s = .next { s with
        trace := s.trace ++ [.fault (.badOperand rate.toNat)], result := .fault (.badOperand rate.toNat) })) ∧
  (∀ rate : Rate, baudAccepted State.reset.cfg.baudSet rate = true ↔ rate ≠ 0)

/-- FLUSH empties both queues and touches nothing else (R185, decision D14). -/
def Obligations.FlushCompletes : Prop :=
  ∀ s : State, s.lcOpen = true →
    (s.nextDraw.ioFail = false →
      exec .flush s = .next { s.wireTurn with
        lcRx := [], lcTx := [], trace := s.trace ++ [.flush], result := .done }) ∧
    (s.nextDraw.ioFail = true →
      exec .flush s = .next { s.wireTurn with
        trace := s.trace ++ [.fault (.io .flush none)], result := .fault (.io .flush none) })

/-- WRITE with room for its bytes and no failure accepts them all, in order, and returns; what the wire took and
what is queued, together, grow by exactly those bytes (R186, R69, decision D17). -/
def Obligations.WriteCompletes : Prop :=
  ∀ (bytes : List Byte) (s : State), s.lcOpen = true →
    within s.cfg.txFifoCap (s.lcTx.length + bytes.length) = true →
    (∀ k, k < bytes.length → (s.drawAt k).ioFail = false) →
    ∃ t, exec (.write bytes) s = .next t ∧
      t = { s with
        lcRx := t.lcRx, lcTx := t.lcTx, env := t.env,
        trace := s.trace ++ [.tx bytes], lcWriting := none, result := .done } ∧
      t.env.taken ++ t.lcTx = s.env.taken ++ s.lcTx ++ bytes ∧ t.env.input = s.env.input

/-- WRITE struck by a failure before its next byte: the bytes accepted stay queued and are recorded, then X_IO;
the rest is not accepted (R186, R193, R274, decisions D17, D18). -/
def Obligations.WriteFailsPartWay : Prop :=
  ∀ (sent : List Byte) (b : Byte) (rest : List Byte) (s : State), s.lcOpen = true →
    within s.cfg.txFifoCap (s.lcTx.length + sent.length + 1) = true →
    (∀ k, k < sent.length → (s.drawAt k).ioFail = false) → (s.drawAt sent.length).ioFail = true →
    ∃ t, exec (.write (sent ++ b :: rest)) s = .next t ∧
      t = { s with
        lcRx := t.lcRx, lcTx := t.lcTx, env := t.env,
        trace := s.trace ++ [.tx sent, .fault (.io .write none)], lcWriting := none,
        result := .fault (.io .write none) } ∧
      t.env.taken ++ t.lcTx = s.env.taken ++ s.lcTx ++ sent

/-- WRITE with a full transmit queue does not return and does not fail: it waits with no event, each later step
tries again, and no command begins before it has returned (R10, R186, R318, decision D17; where it waits is
log 10). -/
def Obligations.WriteStallsWhenFull : Prop :=
  ∀ (b : Byte) (rest : List Byte) (s : State),
    (hasRoom s.cfg.txFifoCap s.wireTurn.lcTx.length = false → s.lcOpen = true →
      exec (.write (b :: rest)) s =
        .next { s.wireTurn with lcWriting := some { accepted := [], remaining := b :: rest } }) ∧
    (∀ done : List Byte, s.lcWriting = some { accepted := done, remaining := b :: rest } →
      s.env.input = [] ∨ (∃ f bs more, s.env.input = .host f bs :: more) →
      (hasRoom s.cfg.txFifoCap s.wireTurn.lcTx.length = false → step s = .next s.wireTurn) ∧
      (hasRoom s.cfg.txFifoCap s.wireTurn.lcTx.length = true → s.nextDraw.ioFail = false →
        step s = .next (({ s.wireTurn with lcTx := s.wireTurn.lcTx ++ [b] } : State).writeLoop
          (done ++ [b]) rest)))

/-- Bytes leave in the order WRITE accepted them, whether it returns, fails or waits; and no other command puts a
byte on the wire that was not at the head of the transmit queue (R62, R69, decision D17; `taken` is log 12). -/
def Obligations.BytesLeaveInOrder : Prop :=
  ∀ (i : Instr) (s t : State), exec i s = .next t →
    (∀ bytes, i = .write bytes →
      ∃ accepted, accepted <+: bytes ∧ t.env.taken ++ t.lcTx = s.env.taken ++ s.lcTx ++ accepted) ∧
    ((∀ bytes, i ≠ .write bytes) →
      ∃ k, k ≤ s.lcTx.length ∧ t.env.taken = s.env.taken ++ s.lcTx.take k)

/-- READ returns the oldest bytes, at most 4096 of them, or none at the deadline, and time goes on by at most the
timeout, by all of it when nothing has arrived (R187, decision D16). -/
def Obligations.ReadCompletes : Prop :=
  ∀ (timeout : Ms) (s : State), s.lcOpen = true → ∃ d,
    d ≤ timeout ∧ (s.wireTurn.lcRx = [] → d = timeout) ∧
    (s.nextDraw.ioFail = false →
      exec (.read timeout) s = .next { s.wireTurn with
        lcRx := s.wireTurn.lcRx.drop (min s.wireTurn.lcRx.length 4096), now := s.now + d,
        trace := s.trace ++ [.rx (s.wireTurn.lcRx.take (min s.wireTurn.lcRx.length 4096))],
        result := .bytes (s.wireTurn.lcRx.take (min s.wireTurn.lcRx.length 4096)) }) ∧
    (s.nextDraw.ioFail = true →
      exec (.read timeout) s = .next { s.wireTurn with
        now := s.now + d, trace := s.trace ++ [.fault (.io .read none)], result := .fault (.io .read none) })

/-- R188: SETDTR. -/
def Obligations.SetDtrWritesDtrOnly : Prop :=
  ∀ (v : Level) (s : State),
    (s.lcOpen = false → exec (.setDtr v) s = .next { s with
      trace := s.trace ++ [.fault (.notOpen .setDtr)], result := .fault (.notOpen .setDtr) }) ∧
    (s.lcOpen = true → s.nextDraw.ioFail = true → exec (.setDtr v) s = .next { s.wireTurn with
      trace := s.trace ++ [.fault (.io .setDtr none)], result := .fault (.io .setDtr none) }) ∧
    (s.lcOpen = true → s.nextDraw.ioFail = false → exec (.setDtr v) s = .next { s.wireTurn with
      lcDtr := some v, trace := s.trace ++ [.line .dtr v], result := .done })

/-- R189: SETRTS. -/
def Obligations.SetRtsWritesRtsOnly : Prop :=
  ∀ (v : Level) (s : State),
    (s.lcOpen = false → exec (.setRts v) s = .next { s with
      trace := s.trace ++ [.fault (.notOpen .setRts)], result := .fault (.notOpen .setRts) }) ∧
    (s.lcOpen = true → s.nextDraw.ioFail = true → exec (.setRts v) s = .next { s.wireTurn with
      trace := s.trace ++ [.fault (.io .setRts none)], result := .fault (.io .setRts none) }) ∧
    (s.lcOpen = true → s.nextDraw.ioFail = false → exec (.setRts v) s = .next { s.wireTurn with
      lcRts := some v, trace := s.trace ++ [.line .rts v], result := .done })

/-- SETBOTH is two single-line writes in the order of SETBOTH_ORDER, and the wire may act between them (R190,
decision D9); if the first fails, the second is not attempted, and if the second fails, the first stays written.
That the fault names SETBOTH is the model's reading (log 14). -/
def Obligations.SetBothWritesTwice : Prop :=
  ∀ (d r : Level) (s : State), s.lcOpen = true →
    (s.nextDraw.ioFail = false → (s.drawAt 1).ioFail = false → s.cfg.bothOrder = .dtrFirst →
      exec (.setBoth d r) s = .next
        { ({ s.wireTurn with lcDtr := some d, trace := s.trace ++ [.line .dtr d] } : State).wireTurn with
          lcRts := some r, trace := s.trace ++ [.line .dtr d, .line .rts r], result := .done }) ∧
    (s.nextDraw.ioFail = false → (s.drawAt 1).ioFail = false → s.cfg.bothOrder = .rtsFirst →
      exec (.setBoth d r) s = .next
        { ({ s.wireTurn with lcRts := some r, trace := s.trace ++ [.line .rts r] } : State).wireTurn with
          lcDtr := some d, trace := s.trace ++ [.line .rts r, .line .dtr d], result := .done }) ∧
    (s.nextDraw.ioFail = false → (s.drawAt 1).ioFail = true → s.cfg.bothOrder = .dtrFirst →
      exec (.setBoth d r) s = .next
        { ({ s.wireTurn with lcDtr := some d, trace := s.trace ++ [.line .dtr d] } : State).wireTurn with
          trace := s.trace ++ [.line .dtr d, .fault (.io .setBoth none)], result := .fault (.io .setBoth none) }) ∧
    (s.nextDraw.ioFail = false → (s.drawAt 1).ioFail = true → s.cfg.bothOrder = .rtsFirst →
      exec (.setBoth d r) s = .next
        { ({ s.wireTurn with lcRts := some r, trace := s.trace ++ [.line .rts r] } : State).wireTurn with
          trace := s.trace ++ [.line .rts r, .fault (.io .setBoth none)], result := .fault (.io .setBoth none) }) ∧
    (s.nextDraw.ioFail = true →
      exec (.setBoth d r) s = .next { s.wireTurn with
        trace := s.trace ++ [.fault (.io .setBoth none)], result := .fault (.io .setBoth none) })

/-- The nine commands that need the connection raise X_NOT_OPEN first of all on a closed block and change nothing
else (R272, R281, decisions D18, D19); that SETBOTH is named by its own mnemonic is log 14. -/
def Obligations.ClosedBlockRaisesNotOpen : Prop :=
  ∀ (s : State) (i : Instr) (c : Cmd), s.lcOpen = false →
    ((∃ rate, i = .setBaud rate) ∧ c = .setBaud) ∨ (i = .flush ∧ c = .flush) ∨
    ((∃ bs, i = .write bs) ∧ c = .write) ∨ ((∃ n, i = .read n) ∧ c = .read) ∨
    ((∃ v, i = .setDtr v) ∧ c = .setDtr) ∨ ((∃ v, i = .setRts v) ∧ c = .setRts) ∨
    ((∃ d r, i = .setBoth d r) ∧ c = .setBoth) ∨ (i = .runEnter ∧ c = .runEnter) ∨
    (i = .runHard ∧ c = .runHard) →
    exec i s = .next { s with trace := s.trace ++ [.fault (.notOpen c)], result := .fault (.notOpen c) }

/-- Which commands write which line register (R29, R191, decision D11 for CLOSE). -/
def Obligations.LinesChangeOnlyByLineCommands : Prop :=
  ∀ (i : Instr) (s t : State), exec i s = .next t →
    i ≠ .closeDev → (∀ d r, i ≠ .setBoth d r) → i ≠ .runEnter → i ≠ .runHard →
    ((∀ v, i ≠ .setDtr v) → t.lcDtr = s.lcDtr) ∧ ((∀ v, i ≠ .setRts v) → t.lcRts = s.lcRts)

/-! ### Timer and reset sequencer -/

/-- WAIT with an operand that fits the timer: at least `n` ms go by, at most WAIT_SLACK more, the timer is 0
after it, open or closed; an operand that does not fit raises X_BAD_OPERAND (R220, R278, decision D12). -/
def Obligations.WaitLastsAtLeast : Prop :=
  ∀ (n : Ms) (s : State),
    (n < 2 ^ s.cfg.timerW → ∃ e, (∀ slack, s.cfg.waitSlack = some slack → e ≤ slack) ∧
      exec (.wait n) s = .next { s.wireTurn with
        tmRem := 0, now := s.now + n + e, trace := s.trace ++ [.wait n], result := .done }) ∧
    (2 ^ s.cfg.timerW ≤ n → exec (.wait n) s = .next { s with
      trace := s.trace ++ [.fault (.badOperand n)], result := .fault (.badOperand n) })

/-- SELECT without a strategy latches USB_NATIVE exactly for the pair 0x303A, 0x1001, else BRIDGE, absent
identifiers included; with one it raises X_STRATEGY_LOCKED and changes nothing else (R222, R276, decisions D20,
D21). -/
def Obligations.SelectLatchesOnce : Prop :=
  ∀ (vid pid : Option DevId) (s : State),
    (s.rsStrategy = none → exec (.select vid pid) s = .next { s with
      rsStrategy := some (if vid = some 0x303A ∧ pid = some 0x1001 then .usbNative else .bridge),
      result := .done }) ∧
    (∀ held, s.rsStrategy = some held → exec (.select vid pid) s = .next { s with
      trace := s.trace ++ [.fault (.strategyLocked held)], result := .fault (.strategyLocked held) })

/-- Once latched, the strategy stays until a block reset: "must not be mixed mid-session" (R33, R231, decision
D20). -/
def Obligations.StrategyStaysLatched : Prop :=
  ∀ (s t : State) (strat : Strategy), step s = .next t → s.rsStrategy = some strat →
    (∀ rest, s.env.input ≠ .blockReset :: rest) → t.rsStrategy = some strat

/-- RUN_ENTER under USB_NATIVE performs the 13 entries of SEQ_USB: their events in order, both lines 0 after it,
at least 350 ms and at most four overruns more, and nothing else changes but what the wire does (R223, R226,
R228, R236, decisions D8, D12, D20). -/
def Obligations.RunEnterUsbPlaysSeqUsb : Prop :=
  ∀ s : State, s.lcOpen = true → s.rsStrategy = some .usbNative → 7 ≤ s.cfg.timerW →
    s.lineWritesSucceed (rom .seqUsb) →
    ∃ t, exec .runEnter s = .next t ∧
      t = { s with
        lcDtr := some false, lcRts := some false, lcRx := t.lcRx, lcTx := t.lcTx, rsSeq := none, rsPc := 0,
        tmRem := 0, now := t.now, result := .done, env := t.env,
        trace := s.trace ++ [.line .rts false, .line .dtr false, .wait 100, .line .dtr true, .line .rts false,
          .wait 100, .line .rts true, .line .dtr false, .line .rts true, .wait 100, .line .dtr false,
          .line .rts false, .wait 50] } ∧
      s.now + 350 ≤ t.now ∧ ∀ slack, s.cfg.waitSlack = some slack → t.now ≤ s.now + 350 + 4 * slack

/-- RUN_ENTER under BRIDGE performs the 8 entries of SEQ_BRIDGE (R224, R226, R228, R236, decisions D8, D12,
D20). -/
def Obligations.RunEnterBridgePlaysSeqBridge : Prop :=
  ∀ s : State, s.lcOpen = true → s.rsStrategy = some .bridge → 7 ≤ s.cfg.timerW →
    s.lineWritesSucceed (rom .seqBridge) →
    ∃ t, exec .runEnter s = .next t ∧
      t = { s with
        lcDtr := some false, lcRts := some false, lcRx := t.lcRx, lcTx := t.lcTx, rsSeq := none, rsPc := 0,
        tmRem := 0, now := t.now, result := .done, env := t.env,
        trace := s.trace ++ [.line .dtr false, .line .rts true, .wait 100, .line .dtr true, .line .rts false,
          .wait 50, .line .dtr false, .wait 50] } ∧
      s.now + 200 ≤ t.now ∧ ∀ slack, s.cfg.waitSlack = some slack → t.now ≤ s.now + 200 + 3 * slack

/-- RUN_HARD performs the 6 entries of SEQ_HARD, whatever the strategy (R225, R227, R228, R236, decisions D12,
D28). -/
def Obligations.RunHardPlaysSeqHard : Prop :=
  ∀ s : State, s.lcOpen = true → 7 ≤ s.cfg.timerW → s.lineWritesSucceed (rom .seqHard) →
    ∃ t, exec .runHard s = .next t ∧
      t = { s with
        lcDtr := some false, lcRts := some false, lcRx := t.lcRx, lcTx := t.lcTx, rsSeq := none, rsPc := 0,
        tmRem := 0, now := t.now, result := .done, env := t.env,
        trace := s.trace ++ [.line .dtr false, .wait 50, .line .rts true, .wait 100, .line .rts false,
          .wait 100] } ∧
      s.now + 250 ≤ t.now ∧ ∀ slack, s.cfg.waitSlack = some slack → t.now ≤ s.now + 250 + 3 * slack

/-- RUN_ENTER on an open block without a strategy raises X_NO_STRATEGY and writes no line (R275, decision D20). -/
def Obligations.RunEnterNeedsStrategy : Prop :=
  ∀ s : State, s.lcOpen = true → s.rsStrategy = none →
    exec .runEnter s = .next { s with trace := s.trace ++ [.fault .noStrategy], result := .fault .noStrategy }

/-- A line write that fails at entry `k` stops its sequence at once: the entries before it have the effect of
their commands issued one by one, it has none, RS.seq and RS.seq_pc keep the place, the later entries are not
performed, and the fault names the entry (R229, R274, decision D22). -/
def Obligations.SequenceStopsAtFailure : Prop :=
  ∀ (s : State) (i : Instr) (q : SeqName) (k : Nat) (e : RomEntry), s.lcOpen = true → 7 ≤ s.cfg.timerW →
    (i = .runHard ∧ q = .seqHard) ∨ (∃ strat, s.rsStrategy = some strat ∧ i = .runEnter ∧ q = entrySeq strat) →
    (rom q)[k]? = some e → (∀ n, e ≠ .wait n) →
    s.lineWritesSucceed ((rom q).take k) → (s.drawAt k).ioFail = true →
    ∃ (u : State) (f : BlockFault),
      f = .io (match e with | .setDtr _ => .setDtr | .setRts _ => .setRts | .wait _ => .wait) (some (q, k)) ∧
      issue (((rom q).take k).map RomEntry.toInstr) s = .next u ∧
      u.trace = s.trace ++ ((rom q).take k).map entryEvent ∧
      exec i s = .next { u.wireTurn with
        rsSeq := some q, rsPc := k, trace := u.trace ++ [.fault f], result := .fault f }

/-- A sequence is indistinguishable from its commands issued one by one (R228, decision D1): if the commands of
its entries, issued in order, all succeed, the run leaves the state they leave, with the sequencer idle. -/
def Obligations.SequenceEqualsItsCommands : Prop :=
  ∀ (s t : State) (i : Instr) (q : SeqName), s.lcOpen = true → 7 ≤ s.cfg.timerW →
    (i = .runHard ∧ q = .seqHard) ∨ (∃ strat, s.rsStrategy = some strat ∧ i = .runEnter ∧ q = entrySeq strat) →
    s.lineWritesSucceed (rom q) → issue ((rom q).map RomEntry.toInstr) s = .next t →
    exec i s = .next { t with rsSeq := none, rsPc := 0 }

/-- Time never goes back, and only WAIT, READ and the sequences advance it (R35, decisions D12, D13; log 19). -/
def Obligations.OnlyWaitsAndReadsTakeTime : Prop :=
  ∀ (i : Instr) (s t : State), exec i s = .next t →
    s.now ≤ t.now ∧
    ((∀ n, i ≠ .wait n) → (∀ n, i ≠ .read n) → i ≠ .runEnter → i ≠ .runHard → t.now = s.now)

/-! ### The wire, reset, the whole machine -/

/-- A wire turn between commands: what each step of the wire does, and that it does nothing on a closed block
(R69, R70, R78, decisions D17, D27). That a step that is not enabled has no effect is log 13; the records
`taken` and `samples` are log 12. -/
def Obligations.WireStepsActOnQueues : Prop :=
  ∀ (s : State) (rest : List Input),
    (∀ k, s.env.input = .wire (.txTake k) :: rest → s.lcOpen = true → 1 ≤ k → k ≤ s.lcTx.length →
      step s = .next { s with
        lcTx := s.lcTx.drop k,
        env := { s.env with input := rest, taken := s.env.taken ++ s.lcTx.take k } }) ∧
    (∀ bs, s.env.input = .wire (.rxDeliver bs) :: rest → s.lcOpen = true → s.cfg.rxFifoCap = none →
      step s = .next { s with lcRx := s.lcRx ++ bs, env := { s.env with input := rest } }) ∧
    (∀ k bs w, w = .txTake k ∨ w = .rxDeliver bs → s.env.input = .wire w :: rest → s.lcOpen = false →
      step s = .next { s with env := { s.env with input := rest } }) ∧
    (∀ d r, s.env.input = .wire (.observe d r) :: rest →
      step s = .next { s with
        env := { s.env with
          input := rest, samples := s.env.samples ++ [(s.lcDtr.getD d, s.lcRts.getD r)] } })

/-- What the wire does at a point of a command touches the two queues and its own records, and no field of FD,
RS, TM or the lines (R78); it takes from the head of the transmit queue, in order (R69), and with an unbounded
receive queue adds at its tail, in order (R70). It issues no command (log 12). The draws move up by one (log 1). -/
def Obligations.WireTurnTouchesQueuesOnly : Prop :=
  ∀ s : State,
    s.wireTurn = { s with lcRx := s.wireTurn.lcRx, lcTx := s.wireTurn.lcTx, env := s.wireTurn.env } ∧
    (∃ k, s.wireTurn.lcTx = s.lcTx.drop k ∧ s.wireTurn.env.taken = s.env.taken ++ s.lcTx.take k) ∧
    (s.cfg.rxFifoCap = none → s.lcRx <+: s.wireTurn.lcRx) ∧
    (s.lcOpen = false → s.wireTurn.lcRx = s.lcRx ∧ s.wireTurn.lcTx = s.lcTx) ∧
    s.wireTurn.env.input = s.env.input ∧ s.wireTurn.env.issued = s.env.issued ∧ ∀ k, s.wireTurn.drawAt k = s.drawAt (k + 1)

/-- The values of R46 that the spec gives, after reset (decisions D1, D11, D12, D20, D25, D26), and the block
reset of R300, which puts them back, writes no line and appends no event (R301); that it is a turn of the
surroundings is log 20. A new run begins, in which no command has been issued (R306; the record is log 12). -/
def Obligations.ResetValues : Prop :=
  State.reset.fdState = .idle ∧ State.reset.fdBuf = [] ∧ State.reset.lcOpen = false ∧
  State.reset.lcDtr = none ∧ State.reset.lcRts = none ∧ State.reset.lcRx = [] ∧ State.reset.lcTx = [] ∧
  State.reset.rsStrategy = none ∧ State.reset.rsSeq = none ∧ State.reset.rsPc = 0 ∧ State.reset.tmRem = 0 ∧
  State.reset.now = 0 ∧ State.reset.trace = [] ∧
  ∀ (s : State) (rest : List Input), s.env.input = .blockReset :: rest →
    step s = .next { State.reset with cfg := s.cfg, env := { s.env with input := rest, issued := [] } }

/-- The trace is append-only: no step but a block reset removes or reorders an event (R37, decision D26); and no
step at all changes a parameter (R7, R39; where they are held is log 2). -/
def Obligations.TraceOnlyGrows : Prop :=
  ∀ s t : State, step s = .next t →
    ((∀ rest, s.env.input ≠ .blockReset :: rest) → s.trace <+: t.trace) ∧ t.cfg = s.cfg

/-- The invariant holds after reset. -/
def Obligations.InvariantAtReset : Prop := State.reset.Inv

/-- The invariant is kept by every step, from every state that meets it: the deframer's buffer is empty in IDLE
and within BUF_CAP (R24), the queues are within their capacities (R20), the line format is constant while open
(R27), a closed block holds no byte and no line level (R183), the timer is idle between commands (R35), the step
counter stands at 0 or at the line write that failed (R34, R229), and after CLOSE with no command after it the
connection is closed (R306; the record of issued commands is log 12). The clauses on `lcWriting` are log 10. -/
def Obligations.StepKeepsInvariant : Prop :=
  ∀ s t : State, s.Inv → step s = .next t → t.Inv

/-- The end of a run (R306, decision D31). A CLOSE after which the host issues nothing more before the next block
reset finishes the run, open or closed, and the run is good exactly if its trace holds no fault. A run whose last
command is another one is not finished, and neither is one whose WRITE has not returned, nor one with a command
to come, nor one in which nothing was issued. A finished run has the connection closed, and no step but a block
reset makes it unfinished or bad. The turns are log 3, the record of issued commands is log 12. -/
def Obligations.RunFinishesByClose : Prop :=
  (∀ (s : State) (rest : List Input), s.lcWriting = none → s.env.input = .host .command [0x04] :: rest →
    noCommandLeft rest = true →
    ∃ t, step s = .next t ∧ t.finished = true ∧ t.lcOpen = false ∧ t.goodRun = s.noFault) ∧
  (∀ (s t : State) (f : Format) (bs : List Byte) (rest : List Input), s.lcWriting = none →
    s.env.input = .host f bs :: rest → decode f bs ≠ .ok .closeDev → step s = .next t → t.finished = false) ∧
  (∀ s : State, s.lcWriting ≠ none ∨ (∃ f bs rest, s.env.input = .host f bs :: rest) ∨ s.env.issued = [] →
    s.finished = false) ∧
  (∀ s : State, s.Inv → s.finished = true → s.lcOpen = false) ∧
  (∀ s t : State, s.finished = true → step s = .next t → (∀ rest, s.env.input ≠ .blockReset :: rest) →
    t.finished = true ∧ t.goodRun = s.goodRun)
end

