-- ==== Sys2Proof/Laws/Decode.lean ====
section
/-! SUPPORT. Lemmas of the encodings. -/

namespace Sys2Proof

theorem ofCode_code (c : Cmd) : Cmd.ofCode c.code = some c := by cases c <;> decide

theorem natOfBytes_fuel (fuel n : Nat) (h : n < 256 ^ fuel) : natOfBytes (bytesOfNatFuel fuel n) = n := by
  induction fuel generalizing n with
  | zero => simp at h; simp [h, bytesOfNatFuel, natOfBytes]
  | succ fuel ih =>
    unfold bytesOfNatFuel
    split
    · rename_i h0; simp [natOfBytes, h0]
    · have h' : n / 256 < 256 ^ fuel := by rw [Nat.div_lt_iff_lt_mul (by decide)]; rwa [Nat.pow_succ] at h
      simp only [natOfBytes, ih _ h', BitVec.toNat_ofNat]
      omega

/-- The digits of a count give it back. -/
theorem natOfBytes_bytesOfNat (n : Nat) : natOfBytes (bytesOfNat n) = n :=
  natOfBytes_fuel n n (Nat.lt_pow_self (by decide))

theorem decodeLevel_encodeLevel (v : Level) : decodeLevel (encodeLevel v) = some v := by cases v <;> decide

theorem decodeId_encodeId (v : Option DevId) (rest : List Byte) :
    decodeId (encodeId v ++ rest) = some (v, rest) := by
  cases v with
  | none => rfl
  | some x =>
    have hx : (x.extractLsb' 8 8 ++ x.extractLsb' 0 8 : BitVec 16) = x := by
      apply BitVec.eq_of_getLsbD_eq
      intro i hi
      rw [BitVec.getLsbD_append]
      by_cases h : i < 8
      · simp [h]
      · simp [h, show i - 8 < 8 by omega, show 8 + (i - 8) = i by omega]
    simp [encodeId, decodeId, hx]

end Sys2Proof
end

