-- ==== Sys2Proof/Laws/State.lean ====
section
/-! SUPPORT. One lemma per field per update of the state, true by rfl. -/

namespace Sys2Proof.Machine

variable (s : State)

/-! ### `emit` -/

@[simp] theorem emit_fdState (e : Event) : (s.emit e).fdState = s.fdState := rfl
@[simp] theorem emit_fdBuf (e : Event) : (s.emit e).fdBuf = s.fdBuf := rfl
@[simp] theorem emit_lcOpen (e : Event) : (s.emit e).lcOpen = s.lcOpen := rfl
@[simp] theorem emit_lcPath (e : Event) : (s.emit e).lcPath = s.lcPath := rfl
@[simp] theorem emit_lcFormat (e : Event) : (s.emit e).lcFormat = s.lcFormat := rfl
@[simp] theorem emit_lcBaud (e : Event) : (s.emit e).lcBaud = s.lcBaud := rfl
@[simp] theorem emit_lcDtr (e : Event) : (s.emit e).lcDtr = s.lcDtr := rfl
@[simp] theorem emit_lcRts (e : Event) : (s.emit e).lcRts = s.lcRts := rfl
@[simp] theorem emit_lcRx (e : Event) : (s.emit e).lcRx = s.lcRx := rfl
@[simp] theorem emit_lcTx (e : Event) : (s.emit e).lcTx = s.lcTx := rfl
@[simp] theorem emit_rsStrategy (e : Event) : (s.emit e).rsStrategy = s.rsStrategy := rfl
@[simp] theorem emit_rsSeq (e : Event) : (s.emit e).rsSeq = s.rsSeq := rfl
@[simp] theorem emit_rsPc (e : Event) : (s.emit e).rsPc = s.rsPc := rfl
@[simp] theorem emit_tmRem (e : Event) : (s.emit e).tmRem = s.tmRem := rfl
@[simp] theorem emit_now (e : Event) : (s.emit e).now = s.now := rfl
@[simp] theorem emit_trace (e : Event) : (s.emit e).trace = s.trace ++ [e] := rfl
@[simp] theorem emit_lcWriting (e : Event) : (s.emit e).lcWriting = s.lcWriting := rfl
@[simp] theorem emit_result (e : Event) : (s.emit e).result = s.result := rfl
@[simp] theorem emit_cfg (e : Event) : (s.emit e).cfg = s.cfg := rfl
@[simp] theorem emit_env (e : Event) : (s.emit e).env = s.env := rfl

/-! ### `ret` -/

@[simp] theorem ret_fdState (r : Result) : (s.ret r).fdState = s.fdState := rfl
@[simp] theorem ret_fdBuf (r : Result) : (s.ret r).fdBuf = s.fdBuf := rfl
@[simp] theorem ret_lcOpen (r : Result) : (s.ret r).lcOpen = s.lcOpen := rfl
@[simp] theorem ret_lcPath (r : Result) : (s.ret r).lcPath = s.lcPath := rfl
@[simp] theorem ret_lcFormat (r : Result) : (s.ret r).lcFormat = s.lcFormat := rfl
@[simp] theorem ret_lcBaud (r : Result) : (s.ret r).lcBaud = s.lcBaud := rfl
@[simp] theorem ret_lcDtr (r : Result) : (s.ret r).lcDtr = s.lcDtr := rfl
@[simp] theorem ret_lcRts (r : Result) : (s.ret r).lcRts = s.lcRts := rfl
@[simp] theorem ret_lcRx (r : Result) : (s.ret r).lcRx = s.lcRx := rfl
@[simp] theorem ret_lcTx (r : Result) : (s.ret r).lcTx = s.lcTx := rfl
@[simp] theorem ret_rsStrategy (r : Result) : (s.ret r).rsStrategy = s.rsStrategy := rfl
@[simp] theorem ret_rsSeq (r : Result) : (s.ret r).rsSeq = s.rsSeq := rfl
@[simp] theorem ret_rsPc (r : Result) : (s.ret r).rsPc = s.rsPc := rfl
@[simp] theorem ret_tmRem (r : Result) : (s.ret r).tmRem = s.tmRem := rfl
@[simp] theorem ret_now (r : Result) : (s.ret r).now = s.now := rfl
@[simp] theorem ret_trace (r : Result) : (s.ret r).trace = s.trace := rfl
@[simp] theorem ret_lcWriting (r : Result) : (s.ret r).lcWriting = s.lcWriting := rfl
@[simp] theorem ret_result (r : Result) : (s.ret r).result = r := rfl
@[simp] theorem ret_cfg (r : Result) : (s.ret r).cfg = s.cfg := rfl
@[simp] theorem ret_env (r : Result) : (s.ret r).env = s.env := rfl

/-! ### `raise` -/

@[simp] theorem raise_fdState (f : BlockFault) : (s.raise f).fdState = s.fdState := rfl
@[simp] theorem raise_fdBuf (f : BlockFault) : (s.raise f).fdBuf = s.fdBuf := rfl
@[simp] theorem raise_lcOpen (f : BlockFault) : (s.raise f).lcOpen = s.lcOpen := rfl
@[simp] theorem raise_lcPath (f : BlockFault) : (s.raise f).lcPath = s.lcPath := rfl
@[simp] theorem raise_lcFormat (f : BlockFault) : (s.raise f).lcFormat = s.lcFormat := rfl
@[simp] theorem raise_lcBaud (f : BlockFault) : (s.raise f).lcBaud = s.lcBaud := rfl
@[simp] theorem raise_lcDtr (f : BlockFault) : (s.raise f).lcDtr = s.lcDtr := rfl
@[simp] theorem raise_lcRts (f : BlockFault) : (s.raise f).lcRts = s.lcRts := rfl
@[simp] theorem raise_lcRx (f : BlockFault) : (s.raise f).lcRx = s.lcRx := rfl
@[simp] theorem raise_lcTx (f : BlockFault) : (s.raise f).lcTx = s.lcTx := rfl
@[simp] theorem raise_rsStrategy (f : BlockFault) : (s.raise f).rsStrategy = s.rsStrategy := rfl
@[simp] theorem raise_rsSeq (f : BlockFault) : (s.raise f).rsSeq = s.rsSeq := rfl
@[simp] theorem raise_rsPc (f : BlockFault) : (s.raise f).rsPc = s.rsPc := rfl
@[simp] theorem raise_tmRem (f : BlockFault) : (s.raise f).tmRem = s.tmRem := rfl
@[simp] theorem raise_now (f : BlockFault) : (s.raise f).now = s.now := rfl
@[simp] theorem raise_trace (f : BlockFault) : (s.raise f).trace = s.trace ++ [.fault f] := rfl
@[simp] theorem raise_lcWriting (f : BlockFault) : (s.raise f).lcWriting = s.lcWriting := rfl
@[simp] theorem raise_result (f : BlockFault) : (s.raise f).result = .fault f := rfl
@[simp] theorem raise_cfg (f : BlockFault) : (s.raise f).cfg = s.cfg := rfl
@[simp] theorem raise_env (f : BlockFault) : (s.raise f).env = s.env := rfl

/-! ### `flushQueues` -/

@[simp] theorem flushQueues_fdState : (s.flushQueues).fdState = s.fdState := rfl
@[simp] theorem flushQueues_fdBuf : (s.flushQueues).fdBuf = s.fdBuf := rfl
@[simp] theorem flushQueues_lcOpen : (s.flushQueues).lcOpen = s.lcOpen := rfl
@[simp] theorem flushQueues_lcPath : (s.flushQueues).lcPath = s.lcPath := rfl
@[simp] theorem flushQueues_lcFormat : (s.flushQueues).lcFormat = s.lcFormat := rfl
@[simp] theorem flushQueues_lcBaud : (s.flushQueues).lcBaud = s.lcBaud := rfl
@[simp] theorem flushQueues_lcDtr : (s.flushQueues).lcDtr = s.lcDtr := rfl
@[simp] theorem flushQueues_lcRts : (s.flushQueues).lcRts = s.lcRts := rfl
@[simp] theorem flushQueues_lcRx : (s.flushQueues).lcRx = [] := rfl
@[simp] theorem flushQueues_lcTx : (s.flushQueues).lcTx = [] := rfl
@[simp] theorem flushQueues_rsStrategy : (s.flushQueues).rsStrategy = s.rsStrategy := rfl
@[simp] theorem flushQueues_rsSeq : (s.flushQueues).rsSeq = s.rsSeq := rfl
@[simp] theorem flushQueues_rsPc : (s.flushQueues).rsPc = s.rsPc := rfl
@[simp] theorem flushQueues_tmRem : (s.flushQueues).tmRem = s.tmRem := rfl
@[simp] theorem flushQueues_now : (s.flushQueues).now = s.now := rfl
@[simp] theorem flushQueues_trace : (s.flushQueues).trace = s.trace ++ [.flush] := rfl
@[simp] theorem flushQueues_lcWriting : (s.flushQueues).lcWriting = s.lcWriting := rfl
@[simp] theorem flushQueues_result : (s.flushQueues).result = s.result := rfl
@[simp] theorem flushQueues_cfg : (s.flushQueues).cfg = s.cfg := rfl
@[simp] theorem flushQueues_env : (s.flushQueues).env = s.env := rfl

/-! ### `pushTx` -/

@[simp] theorem pushTx_fdState (b : Byte) : (s.pushTx b).fdState = s.fdState := rfl
@[simp] theorem pushTx_fdBuf (b : Byte) : (s.pushTx b).fdBuf = s.fdBuf := rfl
@[simp] theorem pushTx_lcOpen (b : Byte) : (s.pushTx b).lcOpen = s.lcOpen := rfl
@[simp] theorem pushTx_lcPath (b : Byte) : (s.pushTx b).lcPath = s.lcPath := rfl
@[simp] theorem pushTx_lcFormat (b : Byte) : (s.pushTx b).lcFormat = s.lcFormat := rfl
@[simp] theorem pushTx_lcBaud (b : Byte) : (s.pushTx b).lcBaud = s.lcBaud := rfl
@[simp] theorem pushTx_lcDtr (b : Byte) : (s.pushTx b).lcDtr = s.lcDtr := rfl
@[simp] theorem pushTx_lcRts (b : Byte) : (s.pushTx b).lcRts = s.lcRts := rfl
@[simp] theorem pushTx_lcRx (b : Byte) : (s.pushTx b).lcRx = s.lcRx := rfl
@[simp] theorem pushTx_lcTx (b : Byte) : (s.pushTx b).lcTx = s.lcTx ++ [b] := rfl
@[simp] theorem pushTx_rsStrategy (b : Byte) : (s.pushTx b).rsStrategy = s.rsStrategy := rfl
@[simp] theorem pushTx_rsSeq (b : Byte) : (s.pushTx b).rsSeq = s.rsSeq := rfl
@[simp] theorem pushTx_rsPc (b : Byte) : (s.pushTx b).rsPc = s.rsPc := rfl
@[simp] theorem pushTx_tmRem (b : Byte) : (s.pushTx b).tmRem = s.tmRem := rfl
@[simp] theorem pushTx_now (b : Byte) : (s.pushTx b).now = s.now := rfl
@[simp] theorem pushTx_trace (b : Byte) : (s.pushTx b).trace = s.trace := rfl
@[simp] theorem pushTx_lcWriting (b : Byte) : (s.pushTx b).lcWriting = s.lcWriting := rfl
@[simp] theorem pushTx_result (b : Byte) : (s.pushTx b).result = s.result := rfl
@[simp] theorem pushTx_cfg (b : Byte) : (s.pushTx b).cfg = s.cfg := rfl
@[simp] theorem pushTx_env (b : Byte) : (s.pushTx b).env = s.env := rfl

/-! ### `popRx` -/

@[simp] theorem popRx_fdState (k : Nat) : (s.popRx k).fdState = s.fdState := rfl
@[simp] theorem popRx_fdBuf (k : Nat) : (s.popRx k).fdBuf = s.fdBuf := rfl
@[simp] theorem popRx_lcOpen (k : Nat) : (s.popRx k).lcOpen = s.lcOpen := rfl
@[simp] theorem popRx_lcPath (k : Nat) : (s.popRx k).lcPath = s.lcPath := rfl
@[simp] theorem popRx_lcFormat (k : Nat) : (s.popRx k).lcFormat = s.lcFormat := rfl
@[simp] theorem popRx_lcBaud (k : Nat) : (s.popRx k).lcBaud = s.lcBaud := rfl
@[simp] theorem popRx_lcDtr (k : Nat) : (s.popRx k).lcDtr = s.lcDtr := rfl
@[simp] theorem popRx_lcRts (k : Nat) : (s.popRx k).lcRts = s.lcRts := rfl
@[simp] theorem popRx_lcRx (k : Nat) : (s.popRx k).lcRx = s.lcRx.drop k := rfl
@[simp] theorem popRx_lcTx (k : Nat) : (s.popRx k).lcTx = s.lcTx := rfl
@[simp] theorem popRx_rsStrategy (k : Nat) : (s.popRx k).rsStrategy = s.rsStrategy := rfl
@[simp] theorem popRx_rsSeq (k : Nat) : (s.popRx k).rsSeq = s.rsSeq := rfl
@[simp] theorem popRx_rsPc (k : Nat) : (s.popRx k).rsPc = s.rsPc := rfl
@[simp] theorem popRx_tmRem (k : Nat) : (s.popRx k).tmRem = s.tmRem := rfl
@[simp] theorem popRx_now (k : Nat) : (s.popRx k).now = s.now := rfl
@[simp] theorem popRx_trace (k : Nat) : (s.popRx k).trace = s.trace := rfl
@[simp] theorem popRx_lcWriting (k : Nat) : (s.popRx k).lcWriting = s.lcWriting := rfl
@[simp] theorem popRx_result (k : Nat) : (s.popRx k).result = s.result := rfl
@[simp] theorem popRx_cfg (k : Nat) : (s.popRx k).cfg = s.cfg := rfl
@[simp] theorem popRx_env (k : Nat) : (s.popRx k).env = s.env := rfl

/-! ### `drawn` -/

@[simp] theorem drawn_fdState : (s.drawn).fdState = s.fdState := rfl
@[simp] theorem drawn_fdBuf : (s.drawn).fdBuf = s.fdBuf := rfl
@[simp] theorem drawn_lcOpen : (s.drawn).lcOpen = s.lcOpen := rfl
@[simp] theorem drawn_lcPath : (s.drawn).lcPath = s.lcPath := rfl
@[simp] theorem drawn_lcFormat : (s.drawn).lcFormat = s.lcFormat := rfl
@[simp] theorem drawn_lcBaud : (s.drawn).lcBaud = s.lcBaud := rfl
@[simp] theorem drawn_lcDtr : (s.drawn).lcDtr = s.lcDtr := rfl
@[simp] theorem drawn_lcRts : (s.drawn).lcRts = s.lcRts := rfl
@[simp] theorem drawn_lcRx : (s.drawn).lcRx = s.lcRx := rfl
@[simp] theorem drawn_lcTx : (s.drawn).lcTx = s.lcTx := rfl
@[simp] theorem drawn_rsStrategy : (s.drawn).rsStrategy = s.rsStrategy := rfl
@[simp] theorem drawn_rsSeq : (s.drawn).rsSeq = s.rsSeq := rfl
@[simp] theorem drawn_rsPc : (s.drawn).rsPc = s.rsPc := rfl
@[simp] theorem drawn_tmRem : (s.drawn).tmRem = s.tmRem := rfl
@[simp] theorem drawn_now : (s.drawn).now = s.now := rfl
@[simp] theorem drawn_trace : (s.drawn).trace = s.trace := rfl
@[simp] theorem drawn_lcWriting : (s.drawn).lcWriting = s.lcWriting := rfl
@[simp] theorem drawn_result : (s.drawn).result = s.result := rfl
@[simp] theorem drawn_cfg : (s.drawn).cfg = s.cfg := rfl

/-! ### `withInput` -/

@[simp] theorem withInput_fdState (is : List Input) : (s.withInput is).fdState = s.fdState := rfl
@[simp] theorem withInput_fdBuf (is : List Input) : (s.withInput is).fdBuf = s.fdBuf := rfl
@[simp] theorem withInput_lcOpen (is : List Input) : (s.withInput is).lcOpen = s.lcOpen := rfl
@[simp] theorem withInput_lcPath (is : List Input) : (s.withInput is).lcPath = s.lcPath := rfl
@[simp] theorem withInput_lcFormat (is : List Input) : (s.withInput is).lcFormat = s.lcFormat := rfl
@[simp] theorem withInput_lcBaud (is : List Input) : (s.withInput is).lcBaud = s.lcBaud := rfl
@[simp] theorem withInput_lcDtr (is : List Input) : (s.withInput is).lcDtr = s.lcDtr := rfl
@[simp] theorem withInput_lcRts (is : List Input) : (s.withInput is).lcRts = s.lcRts := rfl
@[simp] theorem withInput_lcRx (is : List Input) : (s.withInput is).lcRx = s.lcRx := rfl
@[simp] theorem withInput_lcTx (is : List Input) : (s.withInput is).lcTx = s.lcTx := rfl
@[simp] theorem withInput_rsStrategy (is : List Input) : (s.withInput is).rsStrategy = s.rsStrategy := rfl
@[simp] theorem withInput_rsSeq (is : List Input) : (s.withInput is).rsSeq = s.rsSeq := rfl
@[simp] theorem withInput_rsPc (is : List Input) : (s.withInput is).rsPc = s.rsPc := rfl
@[simp] theorem withInput_tmRem (is : List Input) : (s.withInput is).tmRem = s.tmRem := rfl
@[simp] theorem withInput_now (is : List Input) : (s.withInput is).now = s.now := rfl
@[simp] theorem withInput_trace (is : List Input) : (s.withInput is).trace = s.trace := rfl
@[simp] theorem withInput_lcWriting (is : List Input) : (s.withInput is).lcWriting = s.lcWriting := rfl
@[simp] theorem withInput_result (is : List Input) : (s.withInput is).result = s.result := rfl
@[simp] theorem withInput_cfg (is : List Input) : (s.withInput is).cfg = s.cfg := rfl
@[simp] theorem withInput_input (is : List Input) : (s.withInput is).env.input = is := rfl
@[simp] theorem withInput_issued (is : List Input) : (s.withInput is).env.issued = s.env.issued := rfl

/-! ### `issuing` -/

@[simp] theorem issuing_fdState (f : Format) (bs : List Byte) (is : List Input) :
    (s.issuing f bs is).fdState = s.fdState := rfl
@[simp] theorem issuing_fdBuf (f : Format) (bs : List Byte) (is : List Input) :
    (s.issuing f bs is).fdBuf = s.fdBuf := rfl
@[simp] theorem issuing_lcOpen (f : Format) (bs : List Byte) (is : List Input) :
    (s.issuing f bs is).lcOpen = s.lcOpen := rfl
@[simp] theorem issuing_lcPath (f : Format) (bs : List Byte) (is : List Input) :
    (s.issuing f bs is).lcPath = s.lcPath := rfl
@[simp] theorem issuing_lcFormat (f : Format) (bs : List Byte) (is : List Input) :
    (s.issuing f bs is).lcFormat = s.lcFormat := rfl
@[simp] theorem issuing_lcBaud (f : Format) (bs : List Byte) (is : List Input) :
    (s.issuing f bs is).lcBaud = s.lcBaud := rfl
@[simp] theorem issuing_lcDtr (f : Format) (bs : List Byte) (is : List Input) :
    (s.issuing f bs is).lcDtr = s.lcDtr := rfl
@[simp] theorem issuing_lcRts (f : Format) (bs : List Byte) (is : List Input) :
    (s.issuing f bs is).lcRts = s.lcRts := rfl
@[simp] theorem issuing_lcRx (f : Format) (bs : List Byte) (is : List Input) :
    (s.issuing f bs is).lcRx = s.lcRx := rfl
@[simp] theorem issuing_lcTx (f : Format) (bs : List Byte) (is : List Input) :
    (s.issuing f bs is).lcTx = s.lcTx := rfl
@[simp] theorem issuing_rsStrategy (f : Format) (bs : List Byte) (is : List Input) :
    (s.issuing f bs is).rsStrategy = s.rsStrategy := rfl
@[simp] theorem issuing_rsSeq (f : Format) (bs : List Byte) (is : List Input) :
    (s.issuing f bs is).rsSeq = s.rsSeq := rfl
@[simp] theorem issuing_rsPc (f : Format) (bs : List Byte) (is : List Input) :
    (s.issuing f bs is).rsPc = s.rsPc := rfl
@[simp] theorem issuing_tmRem (f : Format) (bs : List Byte) (is : List Input) :
    (s.issuing f bs is).tmRem = s.tmRem := rfl
@[simp] theorem issuing_now (f : Format) (bs : List Byte) (is : List Input) :
    (s.issuing f bs is).now = s.now := rfl
@[simp] theorem issuing_trace (f : Format) (bs : List Byte) (is : List Input) :
    (s.issuing f bs is).trace = s.trace := rfl
@[simp] theorem issuing_lcWriting (f : Format) (bs : List Byte) (is : List Input) :
    (s.issuing f bs is).lcWriting = s.lcWriting := rfl
@[simp] theorem issuing_result (f : Format) (bs : List Byte) (is : List Input) :
    (s.issuing f bs is).result = s.result := rfl
@[simp] theorem issuing_cfg (f : Format) (bs : List Byte) (is : List Input) :
    (s.issuing f bs is).cfg = s.cfg := rfl
@[simp] theorem issuing_input (f : Format) (bs : List Byte) (is : List Input) :
    (s.issuing f bs is).env.input = is := rfl
@[simp] theorem issuing_issued (f : Format) (bs : List Byte) (is : List Input) :
    (s.issuing f bs is).env.issued = s.env.issued ++ [(f, bs)] := rfl

/-! ### `setLineReg` and `writeLine`, which change one line register -/

@[simp] theorem setLineReg_fdState (l : Line) (r : Option Level) : (s.setLineReg l r).fdState = s.fdState := by cases l <;> rfl
@[simp] theorem setLineReg_fdBuf (l : Line) (r : Option Level) : (s.setLineReg l r).fdBuf = s.fdBuf := by cases l <;> rfl
@[simp] theorem setLineReg_lcOpen (l : Line) (r : Option Level) : (s.setLineReg l r).lcOpen = s.lcOpen := by cases l <;> rfl
@[simp] theorem setLineReg_lcPath (l : Line) (r : Option Level) : (s.setLineReg l r).lcPath = s.lcPath := by cases l <;> rfl
@[simp] theorem setLineReg_lcFormat (l : Line) (r : Option Level) : (s.setLineReg l r).lcFormat = s.lcFormat := by cases l <;> rfl
@[simp] theorem setLineReg_lcBaud (l : Line) (r : Option Level) : (s.setLineReg l r).lcBaud = s.lcBaud := by cases l <;> rfl
@[simp] theorem setLineReg_lcRx (l : Line) (r : Option Level) : (s.setLineReg l r).lcRx = s.lcRx := by cases l <;> rfl
@[simp] theorem setLineReg_lcTx (l : Line) (r : Option Level) : (s.setLineReg l r).lcTx = s.lcTx := by cases l <;> rfl
@[simp] theorem setLineReg_rsStrategy (l : Line) (r : Option Level) : (s.setLineReg l r).rsStrategy = s.rsStrategy := by cases l <;> rfl
@[simp] theorem setLineReg_rsSeq (l : Line) (r : Option Level) : (s.setLineReg l r).rsSeq = s.rsSeq := by cases l <;> rfl
@[simp] theorem setLineReg_rsPc (l : Line) (r : Option Level) : (s.setLineReg l r).rsPc = s.rsPc := by cases l <;> rfl
@[simp] theorem setLineReg_tmRem (l : Line) (r : Option Level) : (s.setLineReg l r).tmRem = s.tmRem := by cases l <;> rfl
@[simp] theorem setLineReg_now (l : Line) (r : Option Level) : (s.setLineReg l r).now = s.now := by cases l <;> rfl
@[simp] theorem setLineReg_trace (l : Line) (r : Option Level) : (s.setLineReg l r).trace = s.trace := by cases l <;> rfl
@[simp] theorem setLineReg_lcWriting (l : Line) (r : Option Level) : (s.setLineReg l r).lcWriting = s.lcWriting := by cases l <;> rfl
@[simp] theorem setLineReg_result (l : Line) (r : Option Level) : (s.setLineReg l r).result = s.result := by cases l <;> rfl
@[simp] theorem setLineReg_cfg (l : Line) (r : Option Level) : (s.setLineReg l r).cfg = s.cfg := by cases l <;> rfl
@[simp] theorem setLineReg_env (l : Line) (r : Option Level) : (s.setLineReg l r).env = s.env := by cases l <;> rfl
@[simp] theorem writeLine_fdState (l : Line) (v : Level) : (s.writeLine l v).fdState = s.fdState := by cases l <;> rfl
@[simp] theorem writeLine_fdBuf (l : Line) (v : Level) : (s.writeLine l v).fdBuf = s.fdBuf := by cases l <;> rfl
@[simp] theorem writeLine_lcOpen (l : Line) (v : Level) : (s.writeLine l v).lcOpen = s.lcOpen := by cases l <;> rfl
@[simp] theorem writeLine_lcPath (l : Line) (v : Level) : (s.writeLine l v).lcPath = s.lcPath := by cases l <;> rfl
@[simp] theorem writeLine_lcFormat (l : Line) (v : Level) : (s.writeLine l v).lcFormat = s.lcFormat := by cases l <;> rfl
@[simp] theorem writeLine_lcBaud (l : Line) (v : Level) : (s.writeLine l v).lcBaud = s.lcBaud := by cases l <;> rfl
@[simp] theorem writeLine_lcRx (l : Line) (v : Level) : (s.writeLine l v).lcRx = s.lcRx := by cases l <;> rfl
@[simp] theorem writeLine_lcTx (l : Line) (v : Level) : (s.writeLine l v).lcTx = s.lcTx := by cases l <;> rfl
@[simp] theorem writeLine_rsStrategy (l : Line) (v : Level) : (s.writeLine l v).rsStrategy = s.rsStrategy := by cases l <;> rfl
@[simp] theorem writeLine_rsSeq (l : Line) (v : Level) : (s.writeLine l v).rsSeq = s.rsSeq := by cases l <;> rfl
@[simp] theorem writeLine_rsPc (l : Line) (v : Level) : (s.writeLine l v).rsPc = s.rsPc := by cases l <;> rfl
@[simp] theorem writeLine_tmRem (l : Line) (v : Level) : (s.writeLine l v).tmRem = s.tmRem := by cases l <;> rfl
@[simp] theorem writeLine_now (l : Line) (v : Level) : (s.writeLine l v).now = s.now := by cases l <;> rfl
@[simp] theorem writeLine_trace (l : Line) (v : Level) : (s.writeLine l v).trace = s.trace ++ [.line l v] := by cases l <;> rfl
@[simp] theorem writeLine_lcWriting (l : Line) (v : Level) : (s.writeLine l v).lcWriting = s.lcWriting := by cases l <;> rfl
@[simp] theorem writeLine_result (l : Line) (v : Level) : (s.writeLine l v).result = s.result := by cases l <;> rfl
@[simp] theorem writeLine_cfg (l : Line) (v : Level) : (s.writeLine l v).cfg = s.cfg := by cases l <;> rfl
@[simp] theorem writeLine_env (l : Line) (v : Level) : (s.writeLine l v).env = s.env := by cases l <;> rfl

theorem writeLine_dtr (v : Level) :
    s.writeLine .dtr v = { s with lcDtr := some v, trace := s.trace ++ [.line .dtr v] } := rfl

theorem writeLine_rts (v : Level) :
    s.writeLine .rts v = { s with lcRts := some v, trace := s.trace ++ [.line .rts v] } := rfl

end Sys2Proof.Machine
end

