-- ==== Sys2Proof/Laws/Deframer.lean ====
section
/-! SUPPORT. The specification lemmas of the deframer. -/

namespace Sys2Proof.Machine

/-- An append with room (41_deframer.md R146 to R149). -/
theorem fdAppend_room (s : State) (b : Byte) (h : hasRoom s.cfg.bufCap s.fdBuf.length = true) :
    s.fdAppend b = { s with fdState := .started, fdBuf := s.fdBuf ++ [b], result := .packet none } := by
  unfold State.fdAppend
  unfold hasRoom at h
  cases hc : s.cfg.bufCap with
  | none => rfl
  | some c => simp [hc] at h; simp [h, State.ret]

/-- An append without room (41_deframer.md R156). -/
theorem fdAppend_full (s : State) (b : Byte) (cap : Nat) (hc : s.cfg.bufCap = some cap) (h : cap ≤ s.fdBuf.length) :
    s.fdAppend b = s.raise (.fdOverflow cap) := by
  unfold State.fdAppend
  simp [hc, Nat.not_lt.mpr h]

/-- What one FD_FEED can do: arm or re-arm, discard, complete, arm the escape, append, or overflow
(41_deframer.md R141 to R150, R156). -/
theorem fdFeed_cases (s : State) (b : Byte) :
    s.fdFeed b = s.fdArm ∨ (s.fdState = .idle ∧ s.fdFeed b = s.fdDiscard) ∨
    (s.fdState ≠ .idle ∧ s.fdBuf ≠ [] ∧ s.fdFeed b = s.fdComplete) ∨
    (s.fdState = .started ∧ s.fdFeed b = s.fdArmEscape) ∨
    (s.fdState ≠ .idle ∧ ∃ c, s.fdFeed b = s.fdAppend c) := by
  unfold State.fdFeed
  repeat' split
  · unfold State.fdEnd State.fdEndInFrame
    cases hs : s.fdState <;> by_cases hb : s.fdBuf = [] <;> cases s.cfg.escPolicy <;> simp [hb]
  · unfold State.fdEsc; cases hs : s.fdState <;> simp
  · unfold State.fdEscEnd; cases hs : s.fdState <;> simp
  · unfold State.fdEscEsc; cases hs : s.fdState <;> simp
  · unfold State.fdData; cases hs : s.fdState <;> simp

/-- One FD_FEED changes FD.state, FD.buf, the trace and its result, and nothing else (41_deframer.md R140). -/
theorem fdFeed_frame (s : State) (b : Byte) :
    s.fdFeed b = { s with
      fdState := (s.fdFeed b).fdState, fdBuf := (s.fdFeed b).fdBuf,
      trace := (s.fdFeed b).trace, result := (s.fdFeed b).result } := by
  have happ : ∀ c, s.fdAppend c = { s with
      fdState := (s.fdAppend c).fdState, fdBuf := (s.fdAppend c).fdBuf,
      trace := (s.fdAppend c).trace, result := (s.fdAppend c).result } := by
    intro c; unfold State.fdAppend; split
    · rfl
    · split <;> rfl
  rcases fdFeed_cases s b with h | ⟨-, h⟩ | ⟨-, -, h⟩ | ⟨-, h⟩ | ⟨-, c, h⟩ <;> rw [h]
  · rfl
  · rfl
  · rfl
  · rfl
  · exact happ c

/-- The packets of a feed that starts with some are those, then the packets of the feed. -/
theorem feedFrom_append (out : List (List Byte)) (bs : List Byte) (s : State) :
    feedFrom out bs s = (out ++ (feedN bs s).1, (feedN bs s).2) := by
  have hadd : ∀ (o : List (List Byte)) (r : Result), addPacket o r = o ++ addPacket [] r := by
    intro o r
    cases r with
    | packet p => cases p <;> simp [addPacket]
    | _ => simp [addPacket]
  induction bs generalizing out s with
  | nil => simp [feedFrom, feedN]
  | cons b bs ih =>
    have h1 := ih (addPacket out (s.fdFeed b).result) (s.fdFeed b)
    have h2 := ih (addPacket [] (s.fdFeed b).result) (s.fdFeed b)
    unfold feedN
    rw [feedFrom, feedFrom, h1, h2, hadd out]
    simp

theorem feedN_nil (s : State) : feedN [] s = ([], s) := rfl

theorem feedN_cons (b : Byte) (bs : List Byte) (s : State) :
    feedN (b :: bs) s =
      (addPacket [] (s.fdFeed b).result ++ (feedN bs (s.fdFeed b)).1, (feedN bs (s.fdFeed b)).2) := by
  rw [feedN, feedFrom, feedFrom_append]

/-- FD_FEED acts as the class instruction of its byte (30_encoding.md R93). -/
theorem exec_decodeWireByte (b : Byte) (s : State) : exec (decodeWireByte b) s = .next (s.fdFeed b) := by
  unfold decodeWireByte State.fdFeed
  repeat' split
  all_goals rfl

end Sys2Proof.Machine
end

