-- ==== Sys2Proof/Laws/Ops.lean ====
section
/-! SUPPORT. One specification lemma per shared operation: what it can do, so that no proof unfolds it again. -/

namespace Sys2Proof.Machine

/-! ### The wire -/

/-- A wire step changes the two queues and the surroundings, and nothing else (20_memory.md R78). -/
theorem wireStep_frame (s : State) (w : WireStep) :
    s.wireStep w =
      { s with lcRx := (s.wireStep w).lcRx, lcTx := (s.wireStep w).lcTx, env := (s.wireStep w).env } := by
  cases w <;> simp only [State.wireStep] <;> split <;> rfl

/-- A wire step leaves the draws and the input alone. -/
theorem wireStep_env (s : State) (w : WireStep) :
    (s.wireStep w).env.draws = s.env.draws ∧ (s.wireStep w).env.drawCount = s.env.drawCount ∧
      (s.wireStep w).env.input = s.env.input := by
  cases w <;> simp only [State.wireStep] <;> (try split) <;> simp

/-- A wire step issues no command. -/
theorem wireStep_issued (s : State) (w : WireStep) : (s.wireStep w).env.issued = s.env.issued := by
  cases w <;> simp only [State.wireStep] <;> (try split) <;> rfl

/-- What has been taken and what is still queued, together: a wire step moves bytes from one to the other
(20_memory.md R69). -/
theorem wireStep_sent (s : State) (w : WireStep) :
    (s.wireStep w).env.taken ++ (s.wireStep w).lcTx = s.env.taken ++ s.lcTx := by
  cases w <;> simp only [State.wireStep] <;> (try split) <;> simp

theorem wireStep_txLength (s : State) (w : WireStep) : (s.wireStep w).lcTx.length ≤ s.lcTx.length := by
  cases w <;> simp only [State.wireStep] <;> (try split) <;> simp

theorem storeRx_fits (p : Params) (q new : List Byte) :
    within p.rxFifoCap (storeRx p q new).length = true := by
  unfold within storeRx
  cases p.rxFifoCap with
  | none => rfl
  | some c => cases p.rxLoss <;> simp; omega

theorem wireStep_closed (s : State) (w : WireStep) (h : s.lcOpen = false) :
    (s.wireStep w).lcRx = s.lcRx ∧ (s.wireStep w).lcTx = s.lcTx := by
  cases w <;> simp [State.wireStep, h]

theorem wireStep_rxFits (s : State) (w : WireStep) (h : within s.cfg.rxFifoCap s.lcRx.length = true) :
    within s.cfg.rxFifoCap (s.wireStep w).lcRx.length = true := by
  cases w <;> simp only [State.wireStep] <;> (try split) <;> simp [h, storeRx_fits]

theorem wireSteps_frame (s : State) (ms : List WireStep) :
    s.wireSteps ms =
      { s with lcRx := (s.wireSteps ms).lcRx, lcTx := (s.wireSteps ms).lcTx, env := (s.wireSteps ms).env } := by
  induction ms generalizing s with
  | nil => rfl
  | cons m ms ih =>
    rw [State.wireSteps, ih (s.wireStep m)]
    congr 1 <;> rw [wireStep_frame s m]

theorem wireSteps_env (s : State) (ms : List WireStep) :
    (s.wireSteps ms).env.draws = s.env.draws ∧ (s.wireSteps ms).env.drawCount = s.env.drawCount ∧
      (s.wireSteps ms).env.input = s.env.input := by
  induction ms generalizing s with
  | nil => simp [State.wireSteps]
  | cons m ms ih =>
    obtain ⟨h1, h2, h3⟩ := wireStep_env s m
    simpa [State.wireSteps, h1, h2, h3] using ih (s.wireStep m)

theorem wireSteps_issued (s : State) (ms : List WireStep) : (s.wireSteps ms).env.issued = s.env.issued := by
  induction ms generalizing s with
  | nil => rfl
  | cons m ms ih => rw [State.wireSteps, ih, wireStep_issued]

theorem wireSteps_sent (s : State) (ms : List WireStep) :
    (s.wireSteps ms).env.taken ++ (s.wireSteps ms).lcTx = s.env.taken ++ s.lcTx := by
  induction ms generalizing s with
  | nil => rfl
  | cons m ms ih => simpa [State.wireSteps, wireStep_sent] using ih (s.wireStep m)

theorem wireSteps_txLength (s : State) (ms : List WireStep) :
    (s.wireSteps ms).lcTx.length ≤ s.lcTx.length := by
  induction ms generalizing s with
  | nil => exact Nat.le_refl _
  | cons m ms ih => exact (ih (s.wireStep m)).trans (wireStep_txLength s m)

theorem wireStep_lcOpen (s : State) (w : WireStep) : (s.wireStep w).lcOpen = s.lcOpen := by
  rw [wireStep_frame]

theorem wireStep_cfg (s : State) (w : WireStep) : (s.wireStep w).cfg = s.cfg := by
  rw [wireStep_frame]

theorem wireSteps_closed (s : State) (ms : List WireStep) (h : s.lcOpen = false) :
    (s.wireSteps ms).lcRx = s.lcRx ∧ (s.wireSteps ms).lcTx = s.lcTx := by
  induction ms generalizing s with
  | nil => exact ⟨rfl, rfl⟩
  | cons m ms ih =>
    have h' := ih (s.wireStep m) (by rw [wireStep_lcOpen, h])
    simpa [State.wireSteps, wireStep_closed s m h] using h'

theorem wireSteps_rxFits (s : State) (ms : List WireStep) (h : within s.cfg.rxFifoCap s.lcRx.length = true) :
    within s.cfg.rxFifoCap (s.wireSteps ms).lcRx.length = true := by
  induction ms generalizing s with
  | nil => exact h
  | cons m ms ih =>
    have h' := ih (s.wireStep m) (by rw [wireStep_cfg]; exact wireStep_rxFits s m h)
    rwa [wireStep_cfg] at h'

/-- A point at which the wire acts changes the two queues and the surroundings, and nothing else. -/
theorem wireTurn_frame (s : State) :
    s.wireTurn = { s with lcRx := s.wireTurn.lcRx, lcTx := s.wireTurn.lcTx, env := s.wireTurn.env } := by
  unfold State.wireTurn
  rw [wireSteps_frame]
  rfl

section
variable (s : State)

@[simp] theorem wireTurn_fdState : s.wireTurn.fdState = s.fdState := by rw [wireTurn_frame]
@[simp] theorem wireTurn_fdBuf : s.wireTurn.fdBuf = s.fdBuf := by rw [wireTurn_frame]
@[simp] theorem wireTurn_lcOpen : s.wireTurn.lcOpen = s.lcOpen := by rw [wireTurn_frame]
@[simp] theorem wireTurn_lcPath : s.wireTurn.lcPath = s.lcPath := by rw [wireTurn_frame]
@[simp] theorem wireTurn_lcFormat : s.wireTurn.lcFormat = s.lcFormat := by rw [wireTurn_frame]
@[simp] theorem wireTurn_lcBaud : s.wireTurn.lcBaud = s.lcBaud := by rw [wireTurn_frame]
@[simp] theorem wireTurn_lcDtr : s.wireTurn.lcDtr = s.lcDtr := by rw [wireTurn_frame]
@[simp] theorem wireTurn_lcRts : s.wireTurn.lcRts = s.lcRts := by rw [wireTurn_frame]
@[simp] theorem wireTurn_rsStrategy : s.wireTurn.rsStrategy = s.rsStrategy := by rw [wireTurn_frame]
@[simp] theorem wireTurn_rsSeq : s.wireTurn.rsSeq = s.rsSeq := by rw [wireTurn_frame]
@[simp] theorem wireTurn_rsPc : s.wireTurn.rsPc = s.rsPc := by rw [wireTurn_frame]
@[simp] theorem wireTurn_tmRem : s.wireTurn.tmRem = s.tmRem := by rw [wireTurn_frame]
@[simp] theorem wireTurn_now : s.wireTurn.now = s.now := by rw [wireTurn_frame]
@[simp] theorem wireTurn_trace : s.wireTurn.trace = s.trace := by rw [wireTurn_frame]
@[simp] theorem wireTurn_lcWriting : s.wireTurn.lcWriting = s.lcWriting := by rw [wireTurn_frame]
@[simp] theorem wireTurn_result : s.wireTurn.result = s.result := by rw [wireTurn_frame]
@[simp] theorem wireTurn_cfg : s.wireTurn.cfg = s.cfg := by rw [wireTurn_frame]

@[simp] theorem wireTurn_input : s.wireTurn.env.input = s.env.input := (wireSteps_env s.drawn _).2.2

@[simp] theorem wireTurn_issued : s.wireTurn.env.issued = s.env.issued := wireSteps_issued s.drawn _

/-- A point uses up one draw: the draws move up by one. -/
@[simp] theorem wireTurn_drawAt (k : Nat) : s.wireTurn.drawAt k = s.drawAt (k + 1) := by
  obtain ⟨h1, h2, -⟩ := wireSteps_env s.drawn s.nextDraw.moves
  unfold State.drawAt State.wireTurn
  rw [h1, h2]
  simp [State.drawn, Nat.add_comm, Nat.add_left_comm]

@[simp] theorem wireTurn_nextDraw : s.wireTurn.nextDraw = s.drawAt 1 := wireTurn_drawAt s 0

/-- The wire takes bytes from the head only, in order (20_memory.md R69). -/
theorem wireTurn_sent : s.wireTurn.env.taken ++ s.wireTurn.lcTx = s.env.taken ++ s.lcTx :=
  wireSteps_sent s.drawn _

theorem wireTurn_txLength : s.wireTurn.lcTx.length ≤ s.lcTx.length := wireSteps_txLength s.drawn _

theorem wireTurn_closed (h : s.lcOpen = false) : s.wireTurn.lcRx = s.lcRx ∧ s.wireTurn.lcTx = s.lcTx :=
  wireSteps_closed s.drawn _ h

theorem wireTurn_rxFits (h : within s.cfg.rxFifoCap s.lcRx.length = true) :
    within s.cfg.rxFifoCap s.wireTurn.lcRx.length = true := wireSteps_rxFits s.drawn _ h

end

/-- The draws to come depend on the surroundings only. -/
theorem drawAt_congr {s t : State} (h : t.env = s.env) (k : Nat) : t.drawAt k = s.drawAt k := by
  unfold State.drawAt; rw [h]

/-! ### The timer -/

/-- The loop of WAIT counts down and lets the time go on (43_reset_sequencer.md R220). -/
theorem ticks_eq (s : State) (n : Nat) : s.ticks n = { s with tmRem := s.tmRem - n, now := s.now + n * tickMs } := by
  induction n generalizing s with
  | zero => simp [State.ticks]
  | succ n ih =>
    rw [State.ticks, ih]
    congr 1
    · exact (Nat.sub_sub _ _ _).trans (by rw [Nat.add_comm])
    · rw [Nat.add_assoc, Nat.succ_mul, Nat.add_comm tickMs]

/-- A wait as a whole (43_reset_sequencer.md R220): at least `n` ms, and the timer is 0 after it. -/
theorem waitFor_eq (s : State) (n : Ms) :
    s.waitFor n = { s.wireTurn with
      tmRem := 0, now := s.now + n + overrun s.cfg.waitSlack s.nextDraw.extra, trace := s.trace ++ [.wait n] } := by
  unfold State.waitFor
  simp [ticks_eq, State.emit, tickMs]

/-- An overrun is within WAIT_SLACK. -/
theorem overrun_le (k extra : Nat) : overrun (some k) extra ≤ k := Nat.min_le_right _ _

/-! ### Preconditions and line writes -/

theorem requireOpen_open (s : State) (c : Cmd) (body : State) (h : s.lcOpen = true) :
    s.requireOpen c body = body := by simp [State.requireOpen, h]

theorem requireOpen_closed (s : State) (c : Cmd) (body : State) (h : s.lcOpen = false) :
    s.requireOpen c body = s.raise (.notOpen c) := by simp [State.requireOpen, h]

theorem lineCommand_ok (s : State) (l : Line) (v : Level) (f : BlockFault) (k : State → State)
    (h : s.nextDraw.ioFail = false) : s.lineCommand l v f k = k (s.wireTurn.writeLine l v) := by
  simp [State.lineCommand, h]

theorem lineCommand_fails (s : State) (l : Line) (v : Level) (f : BlockFault) (k : State → State)
    (h : s.nextDraw.ioFail = true) : s.lineCommand l v f k = s.wireTurn.raise f := by
  simp [State.lineCommand, h]

/-- One inversion lemma for a line write: it fails with no effect, or it writes that line. -/
theorem lineCommand_cases (s : State) (l : Line) (v : Level) (f : BlockFault) (k : State → State) :
    (s.nextDraw.ioFail = true ∧ s.lineCommand l v f k = s.wireTurn.raise f) ∨
    (s.nextDraw.ioFail = false ∧ s.lineCommand l v f k = k (s.wireTurn.writeLine l v)) := by
  cases h : s.nextDraw.ioFail
  · exact .inr ⟨rfl, lineCommand_ok s l v f k h⟩
  · exact .inl ⟨rfl, lineCommand_fails s l v f k h⟩

end Sys2Proof.Machine
end

