-- ==== Sys2Proof/Laws/PerInstr.lean ====
section
/-! SUPPORT. One family of statements about instructions as syntax: the first byte of an instruction's encoding
matches the `match` and `mask` of its row in spec/opcode_table.json. -/

namespace Sys2Proof.Laws.TableRow

/-- The `mask` of the row. -/
def mask : Instr → Byte
  | .feEnd => 0xFF
  | .feEsc => 0xFF
  | .feLit _ => 0x00
  | .fdEnd => 0xFF
  | .fdEsc => 0xFF
  | .fdEscEnd => 0xFF
  | .fdEscEsc => 0xFF
  | .fdData _ => 0x00
  | .encode _ => 0xFF
  | .fdFeed _ => 0xFF
  | .fdReset => 0xFF
  | .openDev _ => 0xFF
  | .closeDev => 0xFF
  | .setBaud _ => 0xFF
  | .flush => 0xFF
  | .write _ => 0xFF
  | .read _ => 0xFF
  | .setDtr _ => 0xFF
  | .setRts _ => 0xFF
  | .setBoth _ _ => 0xFF
  | .wait _ => 0xFF
  | .select _ _ => 0xFF
  | .runEnter => 0xFF
  | .runHard => 0xFF

/-- The `match` of the row. -/
def pattern : Instr → Byte
  | .feEnd => 0xC0
  | .feEsc => 0xDB
  | .feLit _ => 0x00
  | .fdEnd => 0xC0
  | .fdEsc => 0xDB
  | .fdEscEnd => 0xDC
  | .fdEscEsc => 0xDD
  | .fdData _ => 0x00
  | .encode _ => 0x00
  | .fdFeed _ => 0x01
  | .fdReset => 0x02
  | .openDev _ => 0x03
  | .closeDev => 0x04
  | .setBaud _ => 0x05
  | .flush => 0x06
  | .write _ => 0x07
  | .read _ => 0x08
  | .setDtr _ => 0x09
  | .setRts _ => 0x0A
  | .setBoth _ _ => 0x0B
  | .wait _ => 0x0C
  | .select _ _ => 0x0D
  | .runEnter => 0x0E
  | .runHard => 0x0F

/-- The first byte of the encoding is one its row matches. -/
def Statement (i : Instr) : Prop :=
  ∃ b rest, encode i = b :: rest ∧ b &&& mask i = pattern i

/-- A code passes the full mask unchanged. -/
theorem whole_code (c : Cmd) : c.code &&& 0xFF = c.code := by cases c <;> decide

theorem feEnd : Statement .feEnd := ⟨_, _, rfl, rfl⟩
theorem feEsc : Statement .feEsc := ⟨_, _, rfl, rfl⟩
theorem feLit (p : Byte) : Statement (.feLit p) := ⟨_, _, rfl, by simp [mask, pattern]⟩
theorem fdEnd : Statement .fdEnd := ⟨_, _, rfl, rfl⟩
theorem fdEsc : Statement .fdEsc := ⟨_, _, rfl, rfl⟩
theorem fdEscEnd : Statement .fdEscEnd := ⟨_, _, rfl, rfl⟩
theorem fdEscEsc : Statement .fdEscEsc := ⟨_, _, rfl, rfl⟩
theorem fdData (b : Byte) : Statement (.fdData b) := ⟨_, _, rfl, by simp [mask, pattern]⟩
theorem encode (payload : List Byte) : Statement (.encode payload) := ⟨_, _, rfl, whole_code .encode⟩
theorem fdFeed (b : Byte) : Statement (.fdFeed b) := ⟨_, _, rfl, whole_code .fdFeed⟩
theorem fdReset : Statement .fdReset := ⟨_, _, rfl, whole_code .fdReset⟩
theorem openDev (path : Path) : Statement (.openDev path) := ⟨_, _, rfl, whole_code .openDev⟩
theorem closeDev : Statement .closeDev := ⟨_, _, rfl, whole_code .closeDev⟩
theorem setBaud (rate : Rate) : Statement (.setBaud rate) := ⟨_, _, rfl, whole_code .setBaud⟩
theorem flush : Statement .flush := ⟨_, _, rfl, whole_code .flush⟩
theorem write (bytes : List Byte) : Statement (.write bytes) := ⟨_, _, rfl, whole_code .write⟩
theorem read (timeout : Ms) : Statement (.read timeout) := ⟨_, _, rfl, whole_code .read⟩
theorem setDtr (v : Level) : Statement (.setDtr v) := ⟨_, _, rfl, whole_code .setDtr⟩
theorem setRts (v : Level) : Statement (.setRts v) := ⟨_, _, rfl, whole_code .setRts⟩
theorem setBoth (d r : Level) : Statement (.setBoth d r) := ⟨_, _, rfl, whole_code .setBoth⟩
theorem wait (n : Ms) : Statement (.wait n) := ⟨_, _, rfl, whole_code .wait⟩
theorem select (vid pid : Option DevId) : Statement (.select vid pid) := ⟨_, _, rfl, whole_code .select⟩
theorem runEnter : Statement .runEnter := ⟨_, _, rfl, whole_code .runEnter⟩
theorem runHard : Statement .runHard := ⟨_, _, rfl, whole_code .runHard⟩

end Sys2Proof.Laws.TableRow
end

