-- ==== Sys2Proof/Laws/Run.lean ====
section
/-! SUPPORT. The record of issued commands: no meaning writes it, so a step adds a command to it or leaves it. -/

namespace Sys2Proof.Machine

theorem lineCommand_issued (s : State) (l : Line) (v : Level) (f : BlockFault) (after : State → State)
    (h : ∀ t, (after t).env.issued = t.env.issued) :
    (s.lineCommand l v f after).env.issued = s.env.issued := by
  rcases lineCommand_cases s l v f after with ⟨-, e⟩ | ⟨-, e⟩ <;> rw [e]
  · simp
  · rw [h]; cases l <;> simp [State.writeLine, State.setLineReg]

theorem requireOpen_issued (s : State) (c : Cmd) (body : State) (h : body.env.issued = s.env.issued) :
    (s.requireOpen c body).env.issued = s.env.issued := by
  unfold State.requireOpen; split
  · exact h
  · simp

theorem writeLoop_issued (s : State) (done bytes : List Byte) :
    (s.writeLoop done bytes).env.issued = s.env.issued := by
  induction bytes generalizing s done with
  | nil => simp [State.writeLoop]
  | cons b bs ih =>
    unfold State.writeLoop
    repeat' split
    · simp
    · rw [ih]; simp
    · simp

theorem runEntries_issued (s : State) (q : SeqName) (es : List RomEntry) :
    (s.runEntries q es).env.issued = s.env.issued := by
  induction es generalizing s with
  | nil => simp [State.runEntries]
  | cons e es ih =>
    unfold State.runEntries State.performEntry
    cases e with
    | setDtr v => exact lineCommand_issued _ _ _ _ _ (fun t => ih _)
    | setRts v => exact lineCommand_issued _ _ _ _ _ (fun t => ih _)
    | wait n =>
      simp only
      split
      · rw [ih]; simp [waitFor_eq]
      · simp

theorem fdFeed_issued (s : State) (b : Byte) : (s.fdFeed b).env.issued = s.env.issued := by
  rw [fdFeed_frame]

theorem fdAppend_issued (s : State) (b : Byte) : (s.fdAppend b).env.issued = s.env.issued := by
  unfold State.fdAppend; repeat' split
  all_goals simp

theorem fdEndInFrame_issued (s : State) : s.fdEndInFrame.env.issued = s.env.issued := by
  unfold State.fdEndInFrame; split <;> rfl

/-- No meaning issues a command. -/
theorem exec_issued {i : Instr} {s t : State} (h : exec i s = .next t) : t.env.issued = s.env.issued := by
  cases i <;> cases h
  case feEnd => rfl
  case feEsc => rfl
  case feLit => rfl
  case fdEnd =>
    unfold State.fdEnd
    repeat' split
    · rfl
    · exact fdEndInFrame_issued s
    · exact fdAppend_issued s _
    · exact fdEndInFrame_issued s
  case fdEsc => unfold State.fdEsc; split <;> first | rfl | exact fdAppend_issued s _
  case fdEscEnd => unfold State.fdEscEnd; split <;> first | rfl | exact fdAppend_issued s _
  case fdEscEsc => unfold State.fdEscEsc; split <;> first | rfl | exact fdAppend_issued s _
  case fdData => unfold State.fdData; split <;> first | rfl | exact fdAppend_issued s _
  case encode => split <;> rfl
  case fdFeed => exact fdFeed_issued s _
  case fdReset => rfl
  case openDev => repeat' split
                  all_goals simp [State.openWith]
  case closeDev => split <;> rfl
  case setBaud =>
    apply requireOpen_issued; repeat' split
    all_goals simp
  case flush => apply requireOpen_issued; split <;> simp
  case write => exact requireOpen_issued _ _ _ (writeLoop_issued _ _ _)
  case read => apply requireOpen_issued; split <;> simp [State.readWait, State.readBytes]
  case setDtr => exact requireOpen_issued _ _ _ (lineCommand_issued _ _ _ _ _ (fun _ => rfl))
  case setRts => exact requireOpen_issued _ _ _ (lineCommand_issued _ _ _ _ _ (fun _ => rfl))
  case setBoth =>
    apply requireOpen_issued
    split <;> exact lineCommand_issued _ _ _ _ _ (fun _ => lineCommand_issued _ _ _ _ _ (fun _ => rfl))
  case wait => split <;> simp [waitFor_eq]
  case select => split <;> simp
  case runEnter =>
    apply requireOpen_issued; split
    · simp
    · exact runEntries_issued _ _ _
  case runHard => exact requireOpen_issued _ _ _ (runEntries_issued _ _ _)

end Sys2Proof.Machine
end

