-- ==== Sys2Proof/Tests/Slice0.lean ====
section
/-! SUPPORT. Tests. Expected results come from spec/95_test_vectors.md (the vector is named) or from the example
of the rule named; the witnesses at the end meet the hypotheses of the statements. -/

namespace Sys2Proof.Tests

open Sys2Proof.Machine

/-! ### Helpers -/

/-- A draw in which the wire does nothing and nothing fails. -/
def quiet : Draw := { moves := [], ioFail := false, avail := true, rx := [], extra := 0 }

/-- A draw in which the command fails at its `io` point. -/
def failing : Draw := { quiet with ioFail := true }

/-- An open block after reset, with the given draws to come. -/
def openWith (draws : List Draw) : State :=
  { State.reset with
    lcOpen := true, lcFormat := openFormat, lcBaud := 115200, env := { State.reset.env with draws := draws } }

/-- A closed block with the given draws to come. -/
def closedWith (draws : List Draw) : State :=
  { State.reset with env := { State.reset.env with draws := draws } }

/-- The block with a deframer state. -/
def fdWith (st : FdState) (buf : List Byte) : State := { State.reset with fdState := st, fdBuf := buf }

/-- A view of the next state. -/
def view {α : Type} (f : State → α) : Out → Option α
  | .next s => some (f s)
  | .fault _ => none
  | .refused _ => none

/-- A state's deframer and result. -/
def fdView (s : State) : FdState × List Byte × Result := (s.fdState, s.fdBuf, s.result)

/-! ### WellFormed smoke: each check refuses an ill-formed term -/

theorem test_wf_feLit_end : (Instr.feLit 0xC0).wellFormed = false := by decide
theorem test_wf_feLit_esc : (Instr.feLit 0xDB).wellFormed = false := by decide
theorem test_wf_feLit_ok : (Instr.feLit 0xDC).wellFormed = true := by decide
theorem test_wf_fdData_end : (Instr.fdData 0xC0).wellFormed = false := by decide
theorem test_wf_fdData_esc : (Instr.fdData 0xDB).wellFormed = false := by decide
theorem test_wf_fdData_escEnd : (Instr.fdData 0xDC).wellFormed = false := by decide
theorem test_wf_fdData_escEsc : (Instr.fdData 0xDD).wellFormed = false := by decide
theorem test_wf_fdData_ok : (Instr.fdData 0x41).wellFormed = true := by decide

/-! ### Decode: a word for every constructor, from 30_encoding.md R91, R92, R93, R97 -/

theorem test_decode_feEnd : decode .payload [0b11000000] = .ok .feEnd := by decide
theorem test_decode_feEsc : decode .payload [0b11011011] = .ok .feEsc := by decide
theorem test_decode_feLit : decode .payload [0xFF] = .ok (.feLit 0xFF) := by decide
theorem test_decode_fdEnd : decode .wire [0b11000000] = .ok .fdEnd := by decide
theorem test_decode_fdEsc : decode .wire [0b11011011] = .ok .fdEsc := by decide
theorem test_decode_fdEscEnd : decode .wire [0b11011100] = .ok .fdEscEnd := by decide
theorem test_decode_fdEscEsc : decode .wire [0b11011101] = .ok .fdEscEsc := by decide
theorem test_decode_fdData : decode .wire [0x00] = .ok (.fdData 0x00) := by decide
theorem test_decode_encode : decode .command [0x00, 0x01, 0xC0] = .ok (.encode [0x01, 0xC0]) := by decide
theorem test_decode_fdFeed : decode .command [0x01, 0xDB] = .ok (.fdFeed 0xDB) := by decide
theorem test_decode_fdReset : decode .command [0x02] = .ok .fdReset := by decide
theorem test_decode_open : decode .command [0x03, 0x70] = .ok (.openDev [0x70]) := by decide
theorem test_decode_close : decode .command [0x04] = .ok .closeDev := by decide
theorem test_decode_setBaud : decode .command [0x05, 0x00, 0xC2, 0x01, 0x00] = .ok (.setBaud 115200) := by decide
theorem test_decode_flush : decode .command [0x06] = .ok .flush := by decide
theorem test_decode_write : decode .command [0x07, 0xC0, 0xC0] = .ok (.write [0xC0, 0xC0]) := by decide
theorem test_decode_read : decode .command [0x08, 0x64] = .ok (.read 100) := by decide
theorem test_decode_setDtr : decode .command [0x09, 0x00] = .ok (.setDtr false) := by decide
theorem test_decode_setRts : decode .command [0x0A, 0x01] = .ok (.setRts true) := by decide
theorem test_decode_setBoth : decode .command [0x0B, 0x01, 0x00] = .ok (.setBoth true false) := by decide
theorem test_decode_wait : decode .command [0x0C, 0xD0, 0x07] = .ok (.wait 2000) := by decide
theorem test_decode_select :
    decode .command [0x0D, 0x00, 0x01, 0x60, 0xEA] = .ok (.select none (some 0xEA60)) := by decide
theorem test_decode_runEnter : decode .command [0x0E] = .ok .runEnter := by decide
theorem test_decode_runHard : decode .command [0x0F] = .ok .runHard := by decide
theorem test_decode_reserved_first : decode .command [0x10] = .reserved 0x10 := by decide
theorem test_decode_reserved_last : decode .command [0xFF, 0x01] = .reserved 0xFF := by decide
theorem test_decode_no_level : decode .command [0x09, 0x02] = .malformed := by decide
theorem test_encode_wait : encode (.wait 65536) = [0x0C, 0x00, 0x00, 0x01] := by decide
theorem test_tableWord_setBaud : decodeTableWord 8 0x05 = some (.setBaud 0) := by decide
theorem test_tableWord_fdEsc : decodeTableWord 8 0xDB = some .fdEsc := by decide

/-! ### The framer (V40) -/

theorem test_feEnd : view State.result (exec .feEnd State.reset) = some (.bytes [0xDB, 0xDC]) := by decide
theorem test_feEsc : view State.result (exec .feEsc State.reset) = some (.bytes [0xDB, 0xDD]) := by decide
theorem test_feLit : view State.result (exec (.feLit 0xDC) State.reset) = some (.bytes [0xDC]) := by decide
/-- V40-6. -/
theorem test_encode_both_escapes : view State.result (exec (.encode [0xC0, 0xDB]) State.reset) =
    some (.bytes [0xC0, 0xDB, 0xDC, 0xDB, 0xDD, 0xC0]) := by decide
/-- V40-1. -/
theorem test_encode_empty :
    view State.result (exec (.encode []) State.reset) = some (.bytes [0xC0, 0xC0]) := by decide

/-! ### The deframer (V41) -/

/-- V41-6. -/
theorem test_feedN_across_chunks :
    (feedN [0xDC, 0x02, 0xC0] (feedN [0xC0, 0x01, 0xDB] State.reset).2).1 = [[0x01, 0xC0, 0x02]] := by decide
/-- V41-9: ESC ESC. -/
theorem test_feedN_escape_twice :
    (feedN [0xC0, 0xDB, 0xDB, 0xDC, 0xC0] State.reset).1 = [[0xDB, 0xDC]] := by decide
/-- V41-10 under LITERAL. -/
theorem test_fdEnd_in_escape_literal :
    view fdView (exec .fdEnd (fdWith .escape [0x01])) = some (.started, [0x01, 0xC0], .packet none) := by decide
/-- V41-10 under END_FIRST. -/
theorem test_fdEnd_in_escape_endFirst :
    view fdView (exec .fdEnd { fdWith .escape [0x01] with cfg := { defaultParams with escPolicy := .endFirst } }) =
      some (.idle, [], .packet (some [0x01])) := by decide
theorem test_fdEsc_started :
    view fdView (exec .fdEsc (fdWith .started [0x01])) = some (.escape, [0x01], .packet none) := by decide
theorem test_fdEscEnd_escape :
    view fdView (exec .fdEscEnd (fdWith .escape [0x01])) = some (.started, [0x01, 0xC0], .packet none) := by decide
theorem test_fdEscEsc_escape :
    view fdView (exec .fdEscEsc (fdWith .escape [])) = some (.started, [0xDB], .packet none) := by decide
theorem test_fdData_escape :
    view fdView (exec (.fdData 0x41) (fdWith .escape [0x01])) = some (.started, [0x01, 0x41], .packet none) := by
  decide
/-- V41-20. -/
theorem test_fdFeed_noise :
    view fdView (exec (.fdFeed 0xDB) State.reset) = some (.idle, [], .packet none) := by decide
/-- V41-24: the fourth byte overflows a buffer of 2. -/
theorem test_fdFeed_overflow :
    view State.trace (exec (.fdFeed 0x03)
      { fdWith .started [0x01, 0x02] with cfg := { defaultParams with bufCap := some 2 } }) =
      some [.fault (.fdOverflow 2)] := by decide
/-- R151's example. -/
theorem test_fdReset : view fdView (exec .fdReset (fdWith .escape [0x01, 0x02])) = some (.idle, [], .done) := by
  decide

/-! ### Line control (V42) -/

/-- V42-1. -/
theorem test_open :
    view (fun s => (s.lcOpen, s.lcBaud, s.lcDtr, s.lcRts, s.trace)) (exec (.openDev [0x70]) (closedWith [quiet])) =
      some (true, 115200, none, none, [.opened [0x70]]) := by decide
/-- V42-2. -/
theorem test_open_fails :
    view (fun s => (s.lcOpen, s.trace)) (exec (.openDev [0x70]) (closedWith [{ quiet with avail := false }])) =
      some (false, [.openFail [0x70]]) := by decide
/-- V42-17. -/
theorem test_close :
    view (fun s => (s.lcOpen, s.lcTx, s.lcDtr, s.lcRts, s.trace))
      (exec .closeDev { openWith [] with lcDtr := some false, lcRts := some false, lcTx := [0x01] }) =
      some (false, [], none, none, [.closed]) := by decide
/-- V42-15. -/
theorem test_setBaud :
    view (fun s => (s.lcBaud, s.lcRx, s.lcOpen, s.trace))
      (exec (.setBaud 460800) { openWith [quiet] with lcRx := [0x55, 0x55] }) =
      some (460800, [], true, [.baud 460800, .flush]) := by decide
/-- V42-16. -/
theorem test_setBaud_not_in_set :
    view (fun s => (s.lcBaud, s.trace))
      (exec (.setBaud 123)
        { openWith [quiet] with cfg := { defaultParams with baudSet := .listed [115200, 460800, 921600] } }) =
      some (115200, [.fault (.badOperand 123)]) := by decide
/-- V42-14. -/
theorem test_flush :
    view (fun s => (s.lcRx, s.lcTx, s.fdBuf, s.trace))
      (exec .flush { openWith [quiet] with
        lcRx := [0x45, 0x53, 0x50], lcTx := [0x01], fdState := .started, fdBuf := [0x01] }) =
      some ([], [], [0x01], [.flush]) := by decide
/-- V42-18: TX_FIFO_CAP 2, the wire takes one byte while the command waits. -/
theorem test_write_stall_ends :
    view (fun s => (s.env.taken, s.lcTx, s.trace))
      (exec (.write [0x01, 0x02, 0x03])
        { openWith [quiet, quiet, { quiet with moves := [.txTake 1] }] with
          cfg := { defaultParams with txFifoCap := some 2 } }) =
      some ([0x01], [0x02, 0x03], [.tx [0x01, 0x02, 0x03]]) := by decide
/-- V42-20. -/
theorem test_write_fails :
    view (fun s => (s.lcTx, s.trace)) (exec (.write [0x01, 0x02, 0x03]) (openWith [quiet, quiet, failing])) =
      some ([0x01, 0x02], [.tx [0x01, 0x02], .fault (.io .write none)]) := by decide
/-- V42-11. -/
theorem test_read_timeout :
    view (fun s => (s.now, s.trace)) (exec (.read 100) (openWith [quiet])) = some (100, [.rx []]) := by decide
/-- V42-13. -/
theorem test_read_bytes :
    view (fun s => (s.result, s.lcRx, s.now))
      (exec (.read 100) { openWith [{ quiet with extra := 7 }] with lcRx := [0xC0, 0x01] }) =
      some (.bytes [0xC0, 0x01], [], 7) := by decide
/-- V42-22. -/
theorem test_setDtr_fails :
    view (fun s => (s.lcDtr, s.trace)) (exec (.setDtr false) { openWith [failing] with lcDtr := some true }) =
      some (some true, [.fault (.io .setDtr none)]) := by decide
/-- V42-5. -/
theorem test_setDtr :
    view (fun s => (s.lcDtr, s.lcRts, s.trace)) (exec (.setDtr true) (openWith [quiet])) =
      some (some true, none, [.line .dtr true]) := by decide
/-- V42-6: a redundant write is an event. -/
theorem test_setRts_redundant :
    view (fun s => (s.lcRts, s.trace)) (exec (.setRts true) { openWith [quiet] with lcRts := some true }) =
      some (some true, [.line .rts true]) := by decide
/-- V42-7: the lines pass through (1, 1), which the wire may see. -/
theorem test_setBoth_dtrFirst :
    view (fun s => (s.env.samples, s.trace))
      (exec (.setBoth true false)
        { openWith [quiet, { quiet with moves := [.observe false false] }] with
          lcDtr := some false, lcRts := some true }) =
      some ([(true, true)], [.line .dtr true, .line .rts false]) := by decide
/-- V42-8: the lines pass through (0, 0). -/
theorem test_setBoth_rtsFirst :
    view (fun s => (s.env.samples, s.trace))
      (exec (.setBoth true false)
        { openWith [quiet, { quiet with moves := [.observe true true] }] with
          lcDtr := some false, lcRts := some true, cfg := { defaultParams with bothOrder := .rtsFirst } }) =
      some ([(false, false)], [.line .rts false, .line .dtr true]) := by decide

/-! ### Timer and sequencer (V43) -/

/-- V43-6f: an overrun is cut at WAIT_SLACK. -/
theorem test_wait_overrun :
    view (fun s => (s.now, s.tmRem, s.trace))
      (exec (.wait 100)
        { closedWith [{ quiet with extra := 9 }] with cfg := { defaultParams with waitSlack := some 5 } }) =
      some (105, 0, [.wait 100]) := by decide
/-- V43-6d. -/
theorem test_wait_too_long :
    view (fun s => (s.now, s.trace)) (exec (.wait 65536) State.reset) =
      some (0, [.fault (.badOperand 65536)]) := by decide
/-- V43-4b. -/
theorem test_select_other_product :
    view State.rsStrategy (exec (.select (some 0x303A) (some 0x1002)) State.reset) = some (some .bridge) := by
  decide
/-- V43-4a. -/
theorem test_select_usb :
    view State.rsStrategy (exec (.select (some 0x303A) (some 0x1001)) State.reset) = some (some .usbNative) := by
  decide
/-- V43-7: a failure at entry 4 of SEQ_BRIDGE. -/
def failedRun : Out :=
  exec .runEnter { openWith [quiet, quiet, quiet, quiet, failing] with rsStrategy := some .bridge }

set_option maxRecDepth 8000 in
theorem test_runEnter_fails_place :
    view (fun s => (s.lcDtr, s.lcRts, s.rsSeq, s.rsPc)) failedRun =
      some (some true, some true, some .seqBridge, 4) := by decide

set_option maxRecDepth 8000 in
theorem test_runEnter_fails_trace :
    view State.trace failedRun =
      some [.line .dtr false, .line .rts true, .wait 100, .line .dtr true,
        .fault (.io .setRts (some (.seqBridge, 4)))] := by decide

set_option maxRecDepth 8000 in
/-- V43-1. -/
theorem test_runEnter_usb :
    view (fun s => (s.lcDtr, s.lcRts, s.now, s.trace.length))
      (exec .runEnter { openWith (List.replicate 13 quiet) with rsStrategy := some .usbNative }) =
      some (some false, some false, 350, 13) := by decide

set_option maxRecDepth 8000 in
/-- V43-3. -/
theorem test_runHard :
    view (fun s => (s.lcDtr, s.now, s.trace))
      (exec .runHard { openWith (List.replicate 6 quiet) with lcDtr := some false, lcRts := some false }) =
      some (some false, 250,
        [.line .dtr false, .wait 50, .line .rts true, .wait 100, .line .rts false, .wait 100]) := by decide

/-- V43-5b: X_NOT_OPEN comes before X_NO_STRATEGY. -/
theorem test_runEnter_priority :
    view State.trace (exec .runEnter State.reset) = some [.fault (.notOpen .runEnter)] := by decide

/-! ### The step (V60) -/

/-- V60-1. -/
theorem test_step_reserved :
    view State.trace (step (State.reset.present .command [0x10])) = some [.fault (.badCmd 0x10)] := by decide
theorem test_step_table_word :
    view (fun s => (s.rsStrategy, s.env.input)) (step (State.reset.withFetchWord 8 0x0D)) =
      some (some .bridge, []) := by decide

/-! ### The end of a run (70_reset_and_hazards.md R306) -/

theorem test_reset_not_finished : State.reset.finished = false := by decide

/-- A failed OPEN leaves the block closed and does not finish the run. -/
theorem test_failed_open_not_finished :
    view (fun s => (s.lcOpen, s.finished))
      (step ((closedWith [{ quiet with avail := false }]).present .command [0x03, 0x70])) =
      some (false, false) := by decide

/-- CLOSE ends the run, also when another run follows. -/
theorem test_close_finishes_before_next_run :
    view (fun s => (s.finished, s.goodRun))
      (step { openWith [] with
        env := { State.reset.env with input := [.host .command [0x04], .blockReset, .host .command [0x06]] } }) =
      some (true, true) := by decide

/-! ### Witnesses: for every statement with hypotheses, operands and a state that meet all of them together -/

/-- A state whose next turn is the host's. -/
def withTurn (f : Format) (bs : List Byte) : State :=
  { State.reset with env := { State.reset.env with input := [.host f bs] } }

/-- A state whose next turn is the wire's. -/
def withWire (s : State) (w : WireStep) : State := { s with env := { s.env with input := [.wire w] } }

/-- A deframer with a buffer of 2. -/
def fdSmall (st : FdState) (buf : List Byte) (p : EscPolicy) : State :=
  { fdWith st buf with cfg := { defaultParams with bufCap := some 2, escPolicy := p } }

/-- A full transmit queue of capacity 1 on an open block, the wire quiet. -/
def fullTx (writing : Option Writing) (input : List Input) : State :=
  { openWith [quiet] with
    lcTx := [0xC0], lcWriting := writing, cfg := { defaultParams with txFifoCap := some 1 },
    env := { (openWith [quiet]).env with input := input } }

theorem witness_DecodeOfEncode :
    (Instr.feLit 0xDC).wellFormed = true ∧ (Instr.fdData 0xFF).wellFormed = true ∧
      (Instr.select none (some 0xFFFF)).wellFormed = true := by decide

theorem witness_DecodedIsWellFormed :
    decode .wire [0x41] = .ok (.fdData 0x41) ∧ decode .payload [0xDC] = .ok (.feLit 0xDC) ∧
      decode .command [0x0B, 0x01, 0x00] = .ok (.setBoth true false) := by decide

theorem witness_PayloadClassesStuff : (0xDC : Byte) ≠ 0xC0 ∧ (0xDC : Byte) ≠ 0xDB := by decide

theorem witness_StepRunsDecoded :
    decode .command [0x02] = .ok .fdReset ∧ (withTurn .command [0x02]).lcWriting = none ∧
      (withTurn .command [0x02]).env.input = .host .command [0x02] :: [] ∧
      decodeTableWord 8 0x02 = some .fdReset := by decide

theorem witness_ReservedCodeRaisesBadCmd :
    0x10 ≤ (0x10 : Byte).toNat ∧ (withTurn .command [0x10]).lcWriting = none ∧
      (withTurn .command [0x10]).env.input = .host .command (0x10 :: []) :: [] := by decide

theorem witness_EncodeReturnsFrame :
    within State.reset.cfg.payloadMax ([0xC0] : List Byte).length = true ∧
      within (some 2) ([0xC0, 0xDB] : List Byte).length = true ∧
      2 < ([0xC0, 0xDB, 0x00] : List Byte).length ∧
      ({ State.reset with cfg := { defaultParams with payloadMax := some 2 } } : State).cfg.payloadMax = some 2 := by
  decide

theorem witness_EncodeIsPure : within State.reset.cfg.payloadMax ([] : List Byte).length = true := by decide

theorem witness_FrameIsInjective : frame [0xC0, 0xDB] = frame [0xC0, 0xDB] := rfl

theorem witness_FrameAlphabet : (frame [0xDB])[1]? = some 0xDB ∧ (frame [])[1]? = some 0xC0 := by decide

theorem witness_FeedInIdle :
    State.reset.fdState = .idle ∧ (0xDB : Byte) ≠ 0xC0 ∧ isDataByte 0x41 = true := by decide

theorem witness_FeedStartedCompletesOrEscapes :
    (fdWith .started [0x01]).fdState = .started ∧ (fdWith .started [0x01]).fdBuf ≠ [] := by decide

theorem witness_FeedStartedRearmsOrAccumulates :
    (fdWith .started []).fdState = .started ∧ (fdWith .started []).fdBuf = [] ∧
      hasRoom (fdWith .started []).cfg.bufCap (fdWith .started []).fdBuf.length = true ∧
      (fdSmall .started [0x01] .literal).fdState = .started ∧
      hasRoom (fdSmall .started [0x01] .literal).cfg.bufCap (fdSmall .started [0x01] .literal).fdBuf.length = true ∧
      (0xDC : Byte) ≠ 0xC0 ∧ (0xDC : Byte) ≠ 0xDB ∧ isDataByte 0x00 = true := by decide

theorem witness_FeedEscapeUnescapes :
    (fdSmall .escape [0x01] .literal).fdState = .escape ∧
      hasRoom (fdSmall .escape [0x01] .literal).cfg.bufCap (fdSmall .escape [0x01] .literal).fdBuf.length = true := by
  decide

theorem witness_EscapePassesUnknownThrough :
    (fdWith .escape [0x01]).fdState = .escape ∧
      hasRoom (fdWith .escape [0x01]).cfg.bufCap (fdWith .escape [0x01]).fdBuf.length = true ∧
      (fdSmall .escape [0x01, 0x02] .literal).fdState = .escape ∧
      (fdSmall .escape [0x01, 0x02] .literal).cfg.bufCap = some 2 ∧
      (fdSmall .escape [0x01, 0x02] .literal).fdBuf.length = 2 ∧
      (0xDB : Byte) ≠ 0xDC ∧ (0xDB : Byte) ≠ 0xDD ∧ (0xDB : Byte) ≠ 0xC0 ∧ isDataByte 0xDE = true := by decide

theorem witness_EndInEscapeFollowsPolicy :
    (fdSmall .escape [0x01] .literal).fdState = .escape ∧
      (fdSmall .escape [0x01] .literal).cfg.escPolicy = .literal ∧
      hasRoom (fdSmall .escape [0x01] .literal).cfg.bufCap (fdSmall .escape [0x01] .literal).fdBuf.length = true ∧
      (fdSmall .escape [0x01] .endFirst).fdState = .escape ∧
      (fdSmall .escape [0x01] .endFirst).cfg.escPolicy = .endFirst ∧
      (fdSmall .escape [0x01] .endFirst).fdBuf ≠ [] ∧
      (fdSmall .escape [] .endFirst).fdState = .escape ∧
      (fdSmall .escape [] .endFirst).cfg.escPolicy = .endFirst ∧
      (fdSmall .escape [] .endFirst).fdBuf = [] := by decide

theorem witness_FullBufferOverflows :
    (fdSmall .started [0x01, 0x02] .literal).cfg.bufCap = some 2 ∧
      (fdSmall .started [0x01, 0x02] .literal).fdBuf.length = 2 ∧
      ((fdSmall .started [0x01, 0x02] .literal).fdState = .started ∧ (0xDC : Byte) ≠ 0xC0 ∧ (0xDC : Byte) ≠ 0xDB) ∧
      (fdSmall .escape [0x01, 0x02] .endFirst).cfg.bufCap = some 2 ∧
      (fdSmall .escape [0x01, 0x02] .endFirst).fdBuf.length = 2 ∧
      ((fdSmall .escape [0x01, 0x02] .endFirst).fdState = .escape ∧ (0xDB : Byte) ≠ 0xC0) ∧
      (fdSmall .escape [0x01, 0x02] .literal).cfg.bufCap = some 2 ∧
      (fdSmall .escape [0x01, 0x02] .literal).fdBuf.length = 2 ∧
      (fdSmall .escape [0x01, 0x02] .literal).fdState = .escape ∧
      (fdSmall .escape [0x01, 0x02] .literal).cfg.escPolicy = .literal := by decide

theorem witness_FeedIsTotalAndLocal : (fdWith .escape [0x01]).cfg.bufCap = none := by decide

theorem witness_FrameRoundTrip :
    (State.reset.fdState = .idle ∧ State.reset.fdBuf = [] ∧
      within State.reset.cfg.bufCap ([0xC0, 0xDB] : List Byte).length = true ∧ ([0xC0, 0xDB] : List Byte) ≠ []) ∧
    ((fdSmall .started [] .endFirst).fdState = .started ∧ (fdSmall .started [] .endFirst).fdBuf = [] ∧
      within (fdSmall .started [] .endFirst).cfg.bufCap ([0xC0, 0xDB] : List Byte).length = true) := by decide

theorem witness_TwoEndsResynchronise :
    (fdWith .escape [0x01]).cfg.bufCap = none ∧
      ((fdWith .escape [0x01]).fdState = .idle → (fdWith .escape [0x01]).fdBuf = []) ∧
      ([0x01] : List Byte) ≠ [] := by decide

theorem witness_WellEscapedIgnoresPolicy :
    (fdWith .escape [0x01]).wellEscaped [0xDC, 0x41, 0xC0, 0xC0, 0xDB, 0xDD, 0xC0] = true := by decide

theorem witness_FramesAreWellEscaped :
    State.reset.cfg.bufCap = none ∧ State.reset.fdState = .idle ∧ State.reset.fdBuf = [] := by decide

theorem witness_OtherCommandsLeaveDeframer : ∃ t,
    exec .flush (openWith [quiet]) = .next t ∧ Instr.flush.format ≠ .wire ∧
      (∀ b, Instr.flush ≠ .fdFeed b) ∧ Instr.flush ≠ .fdReset :=
  ⟨_, rfl, by decide, by simp, by decide⟩

theorem witness_OpenOutcomes :
    ((closedWith [quiet]).lcOpen = false ∧ (closedWith [quiet]).nextDraw.avail = true) ∧
      ((closedWith [{ quiet with avail := false }]).lcOpen = false ∧
        (closedWith [{ quiet with avail := false }]).nextDraw.avail = false) ∧
      (openWith []).lcOpen = true := by decide

theorem witness_CloseCompletes : (openWith []).lcOpen = true ∧ State.reset.lcOpen = false := by decide

theorem witness_SetBaudCompletes :
    ((openWith [quiet]).lcOpen = true ∧ baudAccepted (openWith [quiet]).cfg.baudSet 1 = true ∧
      (openWith [quiet]).nextDraw.ioFail = false) ∧
    ((openWith [failing]).lcOpen = true ∧ baudAccepted (openWith [failing]).cfg.baudSet 0xFFFFFFFF = true ∧
      (openWith [failing]).nextDraw.ioFail = true) ∧
    baudAccepted (openWith []).cfg.baudSet 0 = false := by decide

theorem witness_FlushCompletes :
    (openWith [quiet]).lcOpen = true ∧ (openWith [quiet]).nextDraw.ioFail = false ∧
      (openWith [failing]).lcOpen = true ∧ (openWith [failing]).nextDraw.ioFail = true := by decide

theorem witness_WriteCompletes :
    (openWith [quiet, quiet]).lcOpen = true ∧
      within (openWith [quiet, quiet]).cfg.txFifoCap
        ((openWith [quiet, quiet]).lcTx.length + ([0xC0, 0x01] : List Byte).length) = true ∧
      (∀ k, k < ([0xC0, 0x01] : List Byte).length → ((openWith [quiet, quiet]).drawAt k).ioFail = false) := by
  decide

theorem witness_WriteFailsPartWay :
    (openWith [quiet, failing]).lcOpen = true ∧
      within (openWith [quiet, failing]).cfg.txFifoCap
        ((openWith [quiet, failing]).lcTx.length + ([0x01] : List Byte).length + 1) = true ∧
      (∀ k, k < ([0x01] : List Byte).length → ((openWith [quiet, failing]).drawAt k).ioFail = false) ∧
      ((openWith [quiet, failing]).drawAt ([0x01] : List Byte).length).ioFail = true := by decide

/-- A waiting WRITE for the clauses of `WriteStallsWhenFull`. -/
def waiting : Writing := { accepted := [0xC0], remaining := [0x01] }

theorem witness_WriteStallsWhenFull_stalls :
    hasRoom (fullTx none []).cfg.txFifoCap (fullTx none []).wireTurn.lcTx.length = false ∧
      (fullTx none []).lcOpen = true ∧
      (fullTx (some waiting) []).lcWriting = some { accepted := [0xC0], remaining := 0x01 :: [] } ∧
      (fullTx (some waiting) []).env.input = [] ∧
      hasRoom (fullTx (some waiting) []).cfg.txFifoCap (fullTx (some waiting) []).wireTurn.lcTx.length = false := by
  decide

theorem witness_WriteStallsWhenFull_goesOn :
    ({ fullTx (some waiting) [.host .command [0x06]] with lcTx := [] } : State).lcWriting =
        some { accepted := [0xC0], remaining := 0x01 :: [] } ∧
      ({ fullTx (some waiting) [.host .command [0x06]] with lcTx := [] } : State).env.input =
        .host .command [0x06] :: [] ∧
      hasRoom (some 1) ({ fullTx (some waiting) [.host .command [0x06]] with lcTx := [] } : State).wireTurn.lcTx.length
        = true ∧
      ({ fullTx (some waiting) [.host .command [0x06]] with lcTx := [] } : State).nextDraw.ioFail = false := by
  decide

theorem witness_BytesLeaveInOrder :
    (∃ t, exec (.write [0x01, 0x02]) (openWith [quiet, failing]) = .next t) ∧
      (∃ t, exec .flush (openWith [{ quiet with moves := [.txTake 1] }]) = .next t ∧
        ∀ bytes, Instr.flush ≠ .write bytes) :=
  ⟨⟨_, rfl⟩, _, rfl, by simp⟩

theorem witness_ReadCompletes :
    (openWith [quiet]).lcOpen = true ∧ (openWith [quiet]).wireTurn.lcRx = [] ∧
      (openWith [quiet]).nextDraw.ioFail = false ∧ (openWith [failing]).nextDraw.ioFail = true := by decide

theorem witness_SetDtrWritesDtrOnly :
    State.reset.lcOpen = false ∧ (openWith [failing]).lcOpen = true ∧ (openWith [failing]).nextDraw.ioFail = true ∧
      (openWith [quiet]).lcOpen = true ∧ (openWith [quiet]).nextDraw.ioFail = false := by decide

theorem witness_SetRtsWritesRtsOnly :
    State.reset.lcOpen = false ∧ (openWith [failing]).lcOpen = true ∧ (openWith [failing]).nextDraw.ioFail = true ∧
      (openWith [quiet]).lcOpen = true ∧ (openWith [quiet]).nextDraw.ioFail = false := by decide

/-- An open block with the other order of SETBOTH. -/
def rtsFirstWith (draws : List Draw) : State :=
  { openWith draws with cfg := { defaultParams with bothOrder := .rtsFirst } }

theorem witness_SetBothWritesTwice_succeeds :
    ((openWith [quiet, quiet]).lcOpen = true ∧ (openWith [quiet, quiet]).nextDraw.ioFail = false ∧
      ((openWith [quiet, quiet]).drawAt 1).ioFail = false ∧ (openWith [quiet, quiet]).cfg.bothOrder = .dtrFirst) ∧
    ((rtsFirstWith [quiet, quiet]).lcOpen = true ∧ (rtsFirstWith [quiet, quiet]).nextDraw.ioFail = false ∧
      ((rtsFirstWith [quiet, quiet]).drawAt 1).ioFail = false ∧
      (rtsFirstWith [quiet, quiet]).cfg.bothOrder = .rtsFirst) := by decide

theorem witness_SetBothWritesTwice_fails :
    ((openWith [quiet, failing]).nextDraw.ioFail = false ∧ ((openWith [quiet, failing]).drawAt 1).ioFail = true ∧
      (openWith [quiet, failing]).lcOpen = true ∧ (openWith [quiet, failing]).cfg.bothOrder = .dtrFirst) ∧
    ((rtsFirstWith [quiet, failing]).nextDraw.ioFail = false ∧
      ((rtsFirstWith [quiet, failing]).drawAt 1).ioFail = true ∧ (rtsFirstWith [quiet, failing]).lcOpen = true ∧
      (rtsFirstWith [quiet, failing]).cfg.bothOrder = .rtsFirst) ∧
    (openWith [failing]).lcOpen = true ∧ (openWith [failing]).nextDraw.ioFail = true := by decide

theorem witness_ClosedBlockRaisesNotOpen :
    State.reset.lcOpen = false ∧ (Instr.runHard = .runHard ∧ Cmd.runHard = .runHard) := by decide

theorem witness_LinesChangeOnlyByLineCommands : ∃ t,
    exec (.setDtr true) (openWith [quiet]) = .next t ∧ Instr.setDtr true ≠ .closeDev ∧
      (∀ d r, Instr.setDtr true ≠ .setBoth d r) ∧ Instr.setDtr true ≠ .runEnter ∧ Instr.setDtr true ≠ .runHard ∧
      (∀ v, Instr.setDtr true ≠ .setRts v) :=
  ⟨_, rfl, by decide, by simp, by decide, by decide, by simp⟩

theorem witness_WaitLastsAtLeast :
    0 < 2 ^ State.reset.cfg.timerW ∧ 65535 < 2 ^ State.reset.cfg.timerW ∧ 2 ^ State.reset.cfg.timerW ≤ 65536 := by
  decide

theorem witness_SelectLatchesOnce :
    State.reset.rsStrategy = none ∧
      ({ State.reset with rsStrategy := some .bridge } : State).rsStrategy = some .bridge := by decide

theorem witness_StrategyStaysLatched : ∃ t,
    step { State.reset with rsStrategy := some .bridge } = .next t ∧
      ({ State.reset with rsStrategy := some .bridge } : State).rsStrategy = some .bridge ∧
      ∀ rest, ({ State.reset with rsStrategy := some .bridge } : State).env.input ≠ .blockReset :: rest :=
  ⟨_, rfl, rfl, by simp [State.reset]⟩

theorem quiet_seqUsb (strat : Option Strategy) :
    ({ openWith (List.replicate 13 quiet) with rsStrategy := strat } : State).lineWritesSucceed (rom .seqUsb) := by
  intro k e he _
  have hk : k < 13 := (List.getElem?_eq_some_iff.mp he).1
  interval_cases k <;> rfl

theorem quiet_seqBridge (strat : Option Strategy) :
    ({ openWith (List.replicate 8 quiet) with rsStrategy := strat } : State).lineWritesSucceed (rom .seqBridge) := by
  intro k e he _
  have hk : k < 8 := (List.getElem?_eq_some_iff.mp he).1
  interval_cases k <;> rfl

theorem quiet_seqHard : (openWith (List.replicate 6 quiet)).lineWritesSucceed (rom .seqHard) := by
  intro k e he _
  have hk : k < 6 := (List.getElem?_eq_some_iff.mp he).1
  interval_cases k <;> rfl

/-- An open block with a strategy and quiet draws. -/
def ready (strat : Strategy) (n : Nat) : State :=
  { openWith (List.replicate n quiet) with rsStrategy := some strat }

theorem witness_RunEnterUsbPlaysSeqUsb :
    (ready .usbNative 13).lcOpen = true ∧ (ready .usbNative 13).rsStrategy = some .usbNative ∧
      7 ≤ (ready .usbNative 13).cfg.timerW ∧ (ready .usbNative 13).lineWritesSucceed (rom .seqUsb) :=
  ⟨by decide, by decide, by decide, quiet_seqUsb _⟩

theorem witness_RunEnterBridgePlaysSeqBridge :
    (ready .bridge 8).lcOpen = true ∧ (ready .bridge 8).rsStrategy = some .bridge ∧
      7 ≤ (ready .bridge 8).cfg.timerW ∧ (ready .bridge 8).lineWritesSucceed (rom .seqBridge) :=
  ⟨by decide, by decide, by decide, quiet_seqBridge _⟩

theorem witness_RunHardPlaysSeqHard :
    (openWith (List.replicate 6 quiet)).lcOpen = true ∧ 7 ≤ (openWith (List.replicate 6 quiet)).cfg.timerW ∧
      (openWith (List.replicate 6 quiet)).lineWritesSucceed (rom .seqHard) :=
  ⟨by decide, by decide, quiet_seqHard⟩

theorem witness_RunEnterNeedsStrategy : (openWith []).lcOpen = true ∧ (openWith []).rsStrategy = none := by decide

/-- A block whose run of SEQ_BRIDGE fails at entry 4. -/
def failsAtFour : State :=
  { openWith [quiet, quiet, quiet, quiet, failing] with rsStrategy := some .bridge }

theorem failsAtFour_before : failsAtFour.lineWritesSucceed ((rom .seqBridge).take 4) := by
  intro k e he _
  have hk : k < 4 := (List.getElem?_eq_some_iff.mp he).1
  interval_cases k <;> rfl

theorem witness_SequenceStopsAtFailure_enter :
    failsAtFour.lcOpen = true ∧ 7 ≤ failsAtFour.cfg.timerW ∧
      (failsAtFour.rsStrategy = some .bridge ∧ SeqName.seqBridge = entrySeq .bridge) ∧
      (rom .seqBridge)[4]? = some (.setRts false) ∧ (∀ n, RomEntry.setRts false ≠ .wait n) ∧
      failsAtFour.lineWritesSucceed ((rom .seqBridge).take 4) ∧ (failsAtFour.drawAt 4).ioFail = true :=
  ⟨by decide, by decide, by decide, by decide, by simp, failsAtFour_before, by decide⟩

theorem witness_SequenceStopsAtFailure_hard :
    (openWith [failing]).lcOpen = true ∧ 7 ≤ (openWith [failing]).cfg.timerW ∧
      (rom .seqHard)[0]? = some (.setDtr false) ∧ (∀ n, RomEntry.setDtr false ≠ .wait n) ∧
      (openWith [failing]).lineWritesSucceed ((rom .seqHard).take 0) ∧
      ((openWith [failing]).drawAt 0).ioFail = true :=
  ⟨by decide, by decide, by decide, by simp, by intro k e he; simp at he, by decide⟩

theorem witness_SequenceEqualsItsCommands : ∃ t,
    (openWith (List.replicate 6 quiet)).lcOpen = true ∧ 7 ≤ (openWith (List.replicate 6 quiet)).cfg.timerW ∧
      (openWith (List.replicate 6 quiet)).lineWritesSucceed (rom .seqHard) ∧
      issue ((rom .seqHard).map RomEntry.toInstr) (openWith (List.replicate 6 quiet)) = .next t :=
  ⟨_, by decide, by decide, quiet_seqHard, rfl⟩

theorem witness_SequenceEqualsItsCommands_enter : ∃ t,
    (ready .bridge 8).lcOpen = true ∧ 7 ≤ (ready .bridge 8).cfg.timerW ∧
      ((ready .bridge 8).rsStrategy = some .bridge ∧ SeqName.seqBridge = entrySeq .bridge) ∧
      (ready .bridge 8).lineWritesSucceed (rom .seqBridge) ∧
      issue ((rom .seqBridge).map RomEntry.toInstr) (ready .bridge 8) = .next t :=
  ⟨_, by decide, by decide, by decide, quiet_seqBridge _, rfl⟩

theorem witness_OnlyWaitsAndReadsTakeTime : ∃ t,
    exec .closeDev (openWith []) = .next t ∧ (∀ n, Instr.closeDev ≠ .wait n) ∧ (∀ n, Instr.closeDev ≠ .read n) ∧
      Instr.closeDev ≠ .runEnter ∧ Instr.closeDev ≠ .runHard :=
  ⟨_, rfl, by simp, by simp, by decide, by decide⟩

theorem witness_WireStepsActOnQueues :
    ((withWire { openWith [] with lcTx := [0x01] } (.txTake 1)).env.input = .wire (.txTake 1) :: [] ∧
      (withWire { openWith [] with lcTx := [0x01] } (.txTake 1)).lcOpen = true ∧
      1 ≤ (withWire { openWith [] with lcTx := [0x01] } (.txTake 1)).lcTx.length) ∧
    ((withWire (openWith []) (.rxDeliver [0x01])).env.input = .wire (.rxDeliver [0x01]) :: [] ∧
      (withWire (openWith []) (.rxDeliver [0x01])).lcOpen = true ∧
      (withWire (openWith []) (.rxDeliver [0x01])).cfg.rxFifoCap = none) ∧
    ((withWire State.reset (.txTake 1)).env.input = .wire (.txTake 1) :: [] ∧
      (withWire State.reset (.txTake 1)).lcOpen = false) ∧
    (withWire State.reset (.observe true false)).env.input = .wire (.observe true false) :: [] := by decide

theorem witness_WireTurnTouchesQueuesOnly :
    State.reset.cfg.rxFifoCap = none ∧ State.reset.lcOpen = false := by decide

theorem witness_ResetValues :
    ({ openWith [] with env := { State.reset.env with input := [.blockReset] } } : State).env.input =
      .blockReset :: [] := by decide

/-- A closed block whose last command was CLOSE, with the turns given still to come. -/
def afterClose (input : List Input) : State :=
  { State.reset with env := { State.reset.env with input := input, issued := [(.command, [0x04])] } }

theorem witness_RunFinishesByClose :
    ((withTurn .command [0x04]).lcWriting = none ∧
      (withTurn .command [0x04]).env.input = .host .command [0x04] :: [] ∧ noCommandLeft [] = true ∧
      noCommandLeft [.wire (.observe false true), .blockReset, .host .command [0x06]] = true) ∧
    ((withTurn .command [0x03, 0x70]).lcWriting = none ∧
      (withTurn .command [0x03, 0x70]).env.input = .host .command [0x03, 0x70] :: [] ∧
      decode .command [0x03, 0x70] ≠ .ok .closeDev) ∧
    (fullTx (some waiting) []).lcWriting ≠ none ∧ State.reset.env.issued = [] := by decide

theorem witness_RunFinishesByClose_other : ∃ t, step (withTurn .command [0x03, 0x70]) = .next t := ⟨_, rfl⟩

theorem witness_RunFinishesByClose_stays : ∃ t,
    (afterClose [.wire (.txTake 1)]).finished = true ∧ step (afterClose [.wire (.txTake 1)]) = .next t ∧
      ∀ rest, (afterClose [.wire (.txTake 1)]).env.input ≠ .blockReset :: rest :=
  ⟨_, by decide, rfl, by simp [afterClose]⟩

theorem witness_RunFinishesByClose_inv : (afterClose []).Inv ∧ (afterClose []).finished = true :=
  ⟨{ timerWide := by decide
     idleEmpty := by decide
     bufFits := by decide
     rxFits := by decide
     txFits := by decide
     formatConstant := by decide
     closedEmpty := by decide
     closedByClose := by decide
     writingLeft := by intro w h; cases h
     timerIdle := by decide
     seqNone := by decide
     seqStopped := by intro q h; cases h }, by decide⟩

theorem witness_TraceOnlyGrows : ∃ t,
    step (withTurn .command [0x10]) = .next t ∧
      ∀ rest, (withTurn .command [0x10]).env.input ≠ .blockReset :: rest :=
  ⟨_, rfl, by simp [withTurn]⟩

/-- A state that meets the invariant: open, in a frame, stopped in SEQ_BRIDGE, a WRITE waiting. -/
theorem witness_StepKeepsInvariant : ∃ s t : State, s.Inv ∧ step s = .next t :=
  ⟨{ fullTx (some waiting) [] with
      fdState := .started, fdBuf := [0x01], rsStrategy := some .bridge, rsSeq := some .seqBridge, rsPc := 4 }, _,
    { timerWide := by decide
      idleEmpty := by decide
      bufFits := by decide
      rxFits := by decide
      txFits := by decide
      formatConstant := by decide
      closedEmpty := by decide
      closedByClose := by decide
      writingLeft := by intro w h; cases h; decide
      timerIdle := by decide
      seqNone := by decide
      seqStopped := by intro q h; cases h; exact ⟨.setRts false, by decide, by simp⟩ }, rfl⟩

end Sys2Proof.Tests
end

section
/-! PROOFS. The host's turn (00_scope.md R9, R10): what a step does with it, and the statement that it runs the
decoded instruction. -/

namespace Sys2Proof.Machine

theorem runPresented_of_decode_ok {f : Format} {bs : List Byte} {i : Instr} (h : decode f bs = .ok i) (s : State) :
    runPresented f bs s = exec i s := by
  simp only [runPresented, h]

/-- With no WRITE waiting, a step runs what the host presents. -/
theorem step_of_hostTurn {s : State} {f : Format} {bs : List Byte} {rest : List Input}
    (hw : s.lcWriting = none) (hin : s.env.input = .host f bs :: rest) :
    step s = runPresented f bs (s.issuing f bs rest) := by
  simp only [step, takeTurn, hin, hostTurn, hw]

theorem step_of_decode_ok {s : State} {f : Format} {bs : List Byte} {rest : List Input} {i : Instr}
    (hi : decode f bs = .ok i) (hw : s.lcWriting = none) (hin : s.env.input = .host f bs :: rest) :
    step s = exec i (s.issuing f bs rest) :=
  (step_of_hostTurn hw hin).trans (runPresented_of_decode_ok hi _)

theorem decode_tableItem_of_decodeTableWord {nbits w : Nat} {i : Instr} (h : decodeTableWord nbits w = some i) :
    decode (tableItem nbits w).1 (tableItem nbits w).2 = .ok i := by
  unfold decodeTableWord at h
  split at h
  next j hd => rw [hd, Option.some.inj h]
  next => cases h
  next => cases h

/-- Settles O5: a step runs the decoded instruction. For a table word the turn is the one `present` puts in front
of the state's own turns, which `issuing` takes away again. -/
theorem stepRunsDecoded : Obligations.StepRunsDecoded := by
  constructor
  · intro s f bs rest i hi hw hin
    exact step_of_decode_ok hi hw hin
  · intro s nbits w i hi
    have hd := decode_tableItem_of_decodeTableWord hi
    exact step_of_decode_ok (s := s.withFetchWord nbits w) (rest := s.env.input) hd rfl rfl

end Sys2Proof.Machine
end

section
/-! PROOFS. The moves of a command: the small changes of the state that every meaning is made of. What a command
and a step can do is said once, as a chain of moves; the facts of 10_state.md follow from what one move does. -/

namespace Sys2Proof

/-- The instructions of the deframer (41_deframer.md R140, R151). -/
def Instr.feedsDeframer : Instr → Bool
  | .fdEnd | .fdEsc | .fdEscEnd | .fdEscEsc | .fdData _ | .fdFeed _ | .fdReset => true
  | _ => false

/-- The commands that let time go on (10_state.md R35; log 19). -/
def Instr.takesTime : Instr → Bool
  | .wait _ | .read _ | .runEnter | .runHard => true
  | _ => false

/-- The commands that run a sequence of the ROM (43_reset_sequencer.md R226, R227). -/
def Instr.runsSequence : Instr → Bool
  | .runEnter | .runHard => true
  | _ => false

/-- Which commands write a level on which line (10_state.md R29, 42_line_control.md R191). -/
def Instr.writesLine : Instr → Machine.Line → Bool
  | .setDtr _, .dtr | .setRts _, .rts | .setBoth _ _, _ | .runEnter, _ | .runHard, _ => true
  | _, _ => false

end Sys2Proof

namespace Sys2Proof.Machine

open Relation (ReflTransGen)

/-- A WRITE may be under way: the block is open, or an earlier WRITE is still waiting, which the invariant allows on
an open block only. -/
def State.mayWrite (s : State) : Prop := s.lcOpen = true ∨ s.lcWriting ≠ none

/-- One move of the command `i`: the smallest changes of the state that 40_framer.md to 43_reset_sequencer.md make.
A premise says which commands make the move, or what holds where it is made. -/
inductive Move (i : Instr) : State → State → Prop where
  /-- `emit` (00_scope.md R9) -/
  | event (s : State) (e : Event) : Move i s (s.emit e)
  /-- `return` (00_scope.md R9) -/
  | result (s : State) (r : Result) : Move i s (s.ret r)
  /-- the surroundings move on: a draw is used up, a turn is taken, a command is recorded (log 1, 3, 12) -/
  | surroundings (s : State) (e : Env) : Move i s { s with env := e }
  /-- a step of the wire (20_memory.md R78) -/
  | wire (s : State) (w : WireStep) : Move i s (s.wireStep w)
  /-- the deframer moves within R24: empty in IDLE, and no longer than BUF_CAP if it was not -/
  | deframe (s : State) (st : FdState) (buf : List Byte) (hi : i.feedsDeframer = true)
      (hidle : st = .idle → buf = [])
      (hfits : within s.cfg.bufCap s.fdBuf.length = true → within s.cfg.bufCap buf.length = true) :
      Move i s { s with fdState := st, fdBuf := buf }
  /-- a successful OPEN (42_line_control.md R180) -/
  | connect (s : State) (path : Path) (rx : List Byte) (hi : i = .openDev path) :
      Move i s { s with
        lcOpen := true, lcPath := path, lcFormat := openFormat, lcBaud := defaultBaud,
        lcRx := storeRx s.cfg [] rx, lcTx := [] }
  /-- CLOSE of an open block (42_line_control.md R183) -/
  | disconnect (s : State) (hi : i = .closeDev) :
      Move i s { s with lcOpen := false, lcRx := [], lcTx := [], lcDtr := none, lcRts := none }
  /-- an accepted SETBAUD (42_line_control.md R184) -/
  | baud (s : State) (rate : Rate) (hi : i = .setBaud rate) : Move i s { s with lcBaud := rate }
  /-- the flush (42_line_control.md R185) -/
  | emptyQueues (s : State) : Move i s { s with lcRx := [], lcTx := [] }
  /-- `pop_rx` (00_scope.md R9) -/
  | pop (s : State) (k : Nat) : Move i s (s.popRx k)
  /-- `push_tx` where there is room (42_line_control.md R186) -/
  | push (s : State) (b : Byte) (hw : s.mayWrite) (hroom : hasRoom s.cfg.txFifoCap s.lcTx.length = true) :
      Move i s (s.pushTx b)
  /-- a WRITE begins or ends its wait (42_line_control.md R186; log 10) -/
  | waiting (s : State) (w : Option Writing) (hi : ∃ bytes, i = .write bytes) (hw : s.mayWrite)
      (hleft : ∀ v, w = some v → v.remaining ≠ []) : Move i s { s with lcWriting := w }
  /-- one line register is written (42_line_control.md R188, R189) -/
  | line (s : State) (l : Line) (v : Level) (hi : i.writesLine l = true) (ho : s.lcOpen = true) :
      Move i s (s.setLineReg l (some v))
  /-- time goes on, and the timer is no higher after it (43_reset_sequencer.md R220, 42_line_control.md R187) -/
  | time (s : State) (left d : Nat) (hi : i.takesTime = true) (hleft : left ≤ s.tmRem) :
      Move i s { s with tmRem := left, now := s.now + d }
  /-- SELECT of the first strategy (43_reset_sequencer.md R222) -/
  | latch (s : State) (strat : Strategy) (hnone : s.rsStrategy = none) :
      Move i s { s with rsStrategy := some strat }
  /-- the sequencer takes another place (43_reset_sequencer.md R228) -/
  | sequence (s : State) (q : Option SeqName) (pc : Nat) (hi : i.runsSequence = true) :
      Move i s { s with rsSeq := q, rsPc := pc }

/-- A chain of moves of the command `i`. -/
abbrev Moves (i : Instr) : State → State → Prop := ReflTransGen (Move i)

section
variable {i : Instr} {s t : State}

theorem Moves.emit {e : Event} (h : Moves i s t) : Moves i s (t.emit e) := h.tail (.event t e)

theorem Moves.ret {r : Result} (h : Moves i s t) : Moves i s (t.ret r) := h.tail (.result t r)

theorem Moves.raise {f : BlockFault} (h : Moves i s t) : Moves i s (t.raise f) := .ret (.emit h)

end

/-- A property that every move keeps is kept by a chain of them. -/
theorem Moves.keeps {i : Instr} {P : State → Prop} (hP : ∀ s t, Move i s t → P s → P t) {s t : State}
    (h : Moves i s t) (hs : P s) : P t := by
  induction h with
  | refl => exact hs
  | tail _ hm ih => exact hP _ _ hm ih

/-! ### The shared operations as chains of moves -/

section
variable {i : Instr} (s : State)

theorem wireSteps_moves (ms : List WireStep) : Moves i s (s.wireSteps ms) := by
  induction ms generalizing s with
  | nil => exact .refl
  | cons m ms ih => exact .head (.wire s m) (ih _)

theorem wireTurn_moves : Moves i s s.wireTurn :=
  .head (.surroundings s _) (wireSteps_moves s.drawn _)

theorem requireOpen_moves {c : Cmd} {body : State} (hbody : s.lcOpen = true → Moves i s body) :
    Moves i s (s.requireOpen c body) := by
  unfold State.requireOpen
  split
  · exact hbody ‹_›
  · exact .raise .refl

theorem flushQueues_moves : Moves i s s.flushQueues :=
  .emit (.single (.emptyQueues s))

theorem writeLine_moves {l : Line} (v : Level) (hi : i.writesLine l = true) (ho : s.lcOpen = true) :
    Moves i s (s.writeLine l v) :=
  .emit (.single (.line s l v hi ho))

/-- The line write fails with no effect, or it is made and the command goes on, open still. -/
theorem lineCommand_moves {l : Line} {v : Level} {f : BlockFault} {after : State → State}
    (hi : i.writesLine l = true) (ho : s.lcOpen = true)
    (hafter : ∀ t : State, t.lcOpen = true → Moves i t (after t)) : Moves i s (s.lineCommand l v f after) := by
  obtain ⟨-, h⟩ | ⟨-, h⟩ := lineCommand_cases s l v f after <;> rw [h]
  · exact .raise (wireTurn_moves s)
  · exact ((wireTurn_moves s).trans (writeLine_moves _ v hi (by simpa using ho))).trans (hafter _ (by simpa using ho))

theorem waitFor_moves (n : Ms) (hi : i.takesTime = true) : Moves i s (s.waitFor n) := by
  rw [waitFor_eq, ← wireTurn_now, ← wireTurn_trace, Nat.add_assoc]
  exact .emit (.tail (wireTurn_moves s) (.time _ 0 _ hi (Nat.zero_le _)))

theorem readWait_moves (timeout : Ms) (hi : i.takesTime = true) : Moves i s (s.readWait timeout) :=
  .tail (wireTurn_moves s) (.time _ _ _ hi (Nat.le_refl _))

theorem readBytes_moves : Moves i s s.readBytes :=
  .ret (.emit (.single (.pop s _)))

theorem openWith_moves {path : Path} (rx : List Byte) (hi : i = .openDev path) : Moves i s (s.openWith path rx) :=
  .ret (.emit (.single (.connect s path rx hi)))

end

/-! ### The deframer -/

/-- Where there is room for one more, one more is within the capacity. -/
theorem within_succ_of_hasRoom {cap : Option Nat} {n : Nat} (h : hasRoom cap n = true) :
    within cap (n + 1) = true := by
  cases cap with
  | none => rfl
  | some c => simpa [hasRoom, within] using h

theorem within_zero (cap : Option Nat) : within cap 0 = true := by cases cap <;> simp [within]

/-- What an append can do (41_deframer.md R146 to R149, R156). -/
theorem fdAppend_cases (s : State) (b : Byte) :
    (hasRoom s.cfg.bufCap s.fdBuf.length = true ∧
      s.fdAppend b = { s with fdState := .started, fdBuf := s.fdBuf ++ [b], result := .packet none }) ∨
    ∃ cap, s.fdAppend b = s.raise (.fdOverflow cap) := by
  cases hroom : hasRoom s.cfg.bufCap s.fdBuf.length with
  | true => exact .inl ⟨rfl, fdAppend_room s b hroom⟩
  | false =>
    cases hc : s.cfg.bufCap with
    | none => simp [hasRoom, hc] at hroom
    | some cap => exact .inr ⟨cap, fdAppend_full s b cap hc (by simpa [hasRoom, hc] using hroom)⟩

section
variable {i : Instr} (s : State) (hi : i.feedsDeframer = true)
include hi

theorem fdClear_moves (st : FdState) : Moves i s { s with fdState := st, fdBuf := [] } :=
  .single (.deframe s st [] hi (fun _ => rfl) (fun _ => within_zero _))

theorem fdAppend_moves (b : Byte) : Moves i s (s.fdAppend b) := by
  obtain ⟨hroom, h⟩ | ⟨cap, h⟩ := fdAppend_cases s b <;> rw [h]
  · exact .ret (.single (.deframe s .started (s.fdBuf ++ [b]) hi nofun
      (fun _ => by simpa using within_succ_of_hasRoom hroom)))
  · exact .raise .refl

theorem fdFeed_moves (b : Byte) : Moves i s (s.fdFeed b) := by
  obtain h | ⟨-, h⟩ | ⟨-, -, h⟩ | ⟨-, h⟩ | ⟨-, c, h⟩ := fdFeed_cases s b <;> rw [h]
  · exact .ret (fdClear_moves s hi .started)
  · exact .ret .refl
  · exact .ret (.emit (fdClear_moves s hi .idle))
  · exact .ret (.single (.deframe s .escape s.fdBuf hi nofun id))
  · exact fdAppend_moves s hi c

/-- For every byte, also one that is not of this class (log 25). -/
theorem fdData_moves (b : Byte) : Moves i s (s.fdData b) := by
  unfold State.fdData
  split
  · exact .ret .refl
  · exact fdAppend_moves s hi b
  · exact fdAppend_moves s hi b

end

/-! ### WRITE and the sequences -/

/-- The loop of WRITE: each byte is queued where there is room, and the loop ends with all bytes queued, at a
failure, or waiting with bytes left (42_line_control.md R186; log 10). -/
theorem writeLoop_moves {i : Instr} (hi : ∃ bytes, i = .write bytes) (s : State) (hw : s.mayWrite)
    (done bytes : List Byte) : Moves i s (s.writeLoop done bytes) := by
  induction bytes generalizing s done with
  | nil => exact .ret (.emit (.single (.waiting s none hi hw nofun)))
  | cons b rest ih =>
    have hw' : s.wireTurn.mayWrite := by simpa [State.mayWrite] using hw
    unfold State.writeLoop
    split
    next hroom =>
      split
      · exact .raise (.emit (.tail (wireTurn_moves s) (.waiting _ none hi hw' nofun)))
      · exact (wireTurn_moves s).trans (.head (.push _ b hw' hroom) (ih (s.wireTurn.pushTx b) hw' _))
    next => exact .tail (wireTurn_moves s) (.waiting _ _ hi hw' (by simp))

/-- A command that runs a sequence writes both lines and takes time. -/
theorem allowed_of_runsSequence {i : Instr} (hi : i.runsSequence = true) :
    i.takesTime = true ∧ ∀ l, i.writesLine l = true := by
  cases i with
  | runEnter | runHard => exact ⟨rfl, fun _ => rfl⟩
  | _ => cases hi

theorem runEntries_moves {i : Instr} (hi : i.runsSequence = true) (s : State) (ho : s.lcOpen = true) (q : SeqName)
    (es : List RomEntry) : Moves i s (s.runEntries q es) := by
  obtain ⟨htime, hline⟩ := allowed_of_runsSequence hi
  induction es generalizing s with
  | nil => exact .ret (.single (.sequence s none 0 hi))
  | cons e es ih =>
    have hafter : ∀ t : State, t.lcOpen = true → Moves i t ({ t with rsPc := t.rsPc + 1 }.runEntries q es) :=
      fun t ht => .head (.sequence t t.rsSeq (t.rsPc + 1) hi) (ih _ ht)
    cases e with
    | setDtr v => exact lineCommand_moves s (hline .dtr) ho hafter
    | setRts v => exact lineCommand_moves s (hline .rts) ho hafter
    | wait n =>
      unfold State.runEntries State.performEntry
      simp only
      split
      · exact (waitFor_moves s n htime).trans (hafter _ (by simpa [waitFor_eq] using ho))
      · exact .raise .refl

theorem runSeq_moves {i : Instr} (hi : i.runsSequence = true) (s : State) (ho : s.lcOpen = true) (q : SeqName) :
    Moves i s (s.runSeq q) :=
  .head (.sequence s (some q) 0 hi) (runEntries_moves hi { s with rsSeq := some q, rsPc := 0 } ho q (rom q))

/-! ### Every command -/

/-- What a command can do: its next state is reached by moves of that command. -/
theorem exec_moves {i : Instr} {s t : State} (h : exec i s = .next t) : Moves i s t := by
  cases i <;> cases h
  case feEnd | feEsc | feLit => exact .ret .refl
  case fdEnd => exact fdFeed_moves s rfl endByte
  case fdEsc => exact fdFeed_moves s rfl escByte
  case fdEscEnd => exact fdFeed_moves s rfl escEndByte
  case fdEscEsc => exact fdFeed_moves s rfl escEscByte
  case fdData b => exact fdData_moves s rfl b
  case encode payload =>
    split
    · exact .ret .refl
    · exact .raise .refl
  case fdFeed b => exact fdFeed_moves s rfl b
  case fdReset => exact .ret (fdClear_moves s rfl .idle)
  case openDev path =>
    repeat' split
    · exact .raise .refl
    · exact (wireTurn_moves s).trans (openWith_moves _ _ rfl)
    · exact .ret (.emit (wireTurn_moves s))
  case closeDev =>
    split
    · exact .ret (.emit (.single (.disconnect s rfl)))
    · exact .ret .refl
  case setBaud rate =>
    refine requireOpen_moves s fun _ => ?_
    repeat' split
    · exact .raise (wireTurn_moves s)
    · have hbaud : Moves (.setBaud rate) s (({ s.wireTurn with lcBaud := rate }).emit (.baud rate)) :=
        .emit (.tail (wireTurn_moves s) (.baud _ rate rfl))
      exact .ret (hbaud.trans (flushQueues_moves _))
    · exact .raise .refl
  case flush =>
    refine requireOpen_moves s fun _ => ?_
    split
    · exact .raise (wireTurn_moves s)
    · exact .ret ((wireTurn_moves s).trans (flushQueues_moves _))
  case write bytes => exact requireOpen_moves s fun ho => writeLoop_moves ⟨bytes, rfl⟩ s (.inl ho) [] bytes
  case read timeout =>
    refine requireOpen_moves s fun _ => ?_
    split
    · exact .raise (readWait_moves s timeout rfl)
    · exact (readWait_moves s timeout rfl).trans (readBytes_moves _)
  case setDtr v => exact requireOpen_moves s fun ho => lineCommand_moves s rfl ho fun _ _ => .ret .refl
  case setRts v => exact requireOpen_moves s fun ho => lineCommand_moves s rfl ho fun _ _ => .ret .refl
  case setBoth d r =>
    refine requireOpen_moves s fun ho => ?_
    split <;> exact lineCommand_moves s rfl ho fun t ht => lineCommand_moves t rfl ht fun _ _ => .ret .refl
  case wait n =>
    split
    · exact .ret (waitFor_moves s n rfl)
    · exact .raise .refl
  case select vid pid =>
    split
    · exact .ret (.single (.latch s _ ‹_›))
    · exact .raise .refl
  case runEnter =>
    refine requireOpen_moves s fun ho => ?_
    split
    · exact .raise .refl
    · exact runSeq_moves rfl s ho _
  case runHard => exact requireOpen_moves s fun ho => runSeq_moves rfl s ho _

end Sys2Proof.Machine
end

section
/-! PROOFS. What one move changes, field by field, and with it what a command and a step leave unchanged
(10_state.md). -/

namespace Sys2Proof.Machine

/-! ### A step is a chain of moves, or a block reset -/

/-- What a step does with the turn it finds (log 3), one constructor per kind of turn. -/
inductive Turn (s : State) : State → Prop where
  | blockReset (rest : List Input) (hin : s.env.input = .blockReset :: rest) : Turn s (s.withInput rest).blockReset
  | wire (w : WireStep) (rest : List Input) (hin : s.env.input = .wire w :: rest) :
      Turn s ((s.withInput rest).wireStep w)
  | resume (w : Writing) (hin : s.env.input = [] ∨ ∃ f bs rest, s.env.input = .host f bs :: rest)
      (hw : s.lcWriting = some w) : Turn s (s.resumeWrite w)
  | idle (hin : s.env.input = []) (hw : s.lcWriting = none) : Turn s s
  | command (f : Format) (bs : List Byte) (rest : List Input) (hin : s.env.input = .host f bs :: rest)
      (hw : s.lcWriting = none) (i : Instr) (hi : decode f bs = .ok i) (t : State)
      (h : exec i (s.issuing f bs rest) = .next t) : Turn s t
  | reserved (f : Format) (bs : List Byte) (rest : List Input) (hin : s.env.input = .host f bs :: rest)
      (hw : s.lcWriting = none) (c : Byte) (hi : decode f bs = .reserved c) :
      Turn s ((s.issuing f bs rest).raise (.badCmd c))

theorem turn_of_idleTurn {s t : State} (hin : s.env.input = []) (h : idleTurn s = .next t) : Turn s t := by
  unfold idleTurn at h
  split at h <;> cases h
  next w hw => exact .resume w (.inl hin) hw
  next hw => exact .idle hin hw

theorem turn_of_hostTurn {s t : State} {f : Format} {bs : List Byte} {rest : List Input}
    (hin : s.env.input = .host f bs :: rest) (h : hostTurn f bs rest s = .next t) : Turn s t := by
  unfold hostTurn at h
  split at h
  next w hw => cases h; exact .resume w (.inr ⟨f, bs, rest, hin⟩) hw
  next hw =>
    unfold runPresented at h
    split at h
    next i hi => exact .command f bs rest hin hw i hi t h
    next c hi => cases h; exact .reserved f bs rest hin hw c hi
    next => cases h

/-- What a step can do. -/
theorem turn_of_step {s t : State} (h : step s = .next t) : Turn s t := by
  unfold step takeTurn at h
  split at h
  next hin => exact turn_of_idleTurn hin h
  next hin => exact turn_of_hostTurn hin h
  next w rest hin => cases h; exact .wire w rest hin
  next rest hin => cases h; exact .blockReset rest hin

theorem step_of_blockReset {s : State} {rest : List Input} (hin : s.env.input = .blockReset :: rest) :
    step s = .next (s.withInput rest).blockReset := by
  simp only [step, takeTurn, hin]

/-- A waiting WRITE goes on by the moves of a WRITE. -/
theorem resumeWrite_moves {s : State} {w : Writing} (hw : s.lcWriting = some w) :
    Moves (.write w.remaining) s (s.resumeWrite w) :=
  writeLoop_moves ⟨_, rfl⟩ s (.inr (by simp [hw])) _ _

theorem issuing_moves {i : Instr} (s : State) (f : Format) (bs : List Byte) (rest : List Input) :
    Moves i s (s.issuing f bs rest) := .single (.surroundings s _)

/-- Every turn but a block reset is a chain of moves of one command, and a CLOSE begins only when no WRITE is
waiting. A turn that runs no command is put down to an empty WRITE: its moves are open to every command. -/
theorem Turn.moves {s t : State} (h : Turn s t) (hreset : ∀ rest, s.env.input ≠ .blockReset :: rest) :
    ∃ i, (i = .closeDev → s.lcWriting = none) ∧ Moves i s t := by
  cases h with
  | blockReset rest hin => exact absurd hin (hreset rest)
  | wire w rest => exact ⟨.write [], nofun, .head (.surroundings s _) (.single (.wire _ w))⟩
  | resume w _ hw => exact ⟨.write w.remaining, nofun, resumeWrite_moves hw⟩
  | idle => exact ⟨.write [], nofun, .refl⟩
  | command f bs rest _ hw i _ t h => exact ⟨i, fun _ => hw, (issuing_moves s f bs rest).trans (exec_moves h)⟩
  | reserved f bs rest => exact ⟨.write [], nofun, .raise (issuing_moves s f bs rest)⟩

/-! ### The fields that a move leaves -/

section
variable {i : Instr} {s t : State}

theorem Move.cfg_eq (h : Move i s t) : t.cfg = s.cfg := by
  cases h with
  | wire w => exact wireStep_cfg s w
  | line l v => exact setLineReg_cfg s l _
  | _ => rfl

theorem Move.trace_prefix (h : Move i s t) : s.trace <+: t.trace := by
  cases h with
  | event e => exact List.prefix_append _ _
  | wire w => rw [wireStep_frame]
  | line l v => rw [setLineReg_trace]
  | _ => exact List.prefix_rfl

theorem Move.keeps_strategy (h : Move i s t) {strat : Strategy} (hs : s.rsStrategy = some strat) :
    t.rsStrategy = some strat := by
  cases h with
  | wire w => rwa [wireStep_frame]
  | line l v => rwa [setLineReg_rsStrategy]
  | latch strat' hnone => cases hnone.symm.trans hs
  | _ => exact hs

theorem Move.now_le (h : Move i s t) : s.now ≤ t.now := by
  cases h with
  | wire w => rw [wireStep_frame]
  | line l v => rw [setLineReg_now]
  | time left d => exact Nat.le_add_right _ _
  | _ => exact Nat.le_refl _

theorem Move.now_eq (h : Move i s t) (hi : i.takesTime = false) : t.now = s.now := by
  cases h with
  | wire w => rw [wireStep_frame]
  | line l v => rw [setLineReg_now]
  | time left d hi' => cases hi.symm.trans hi'
  | _ => rfl

theorem lineReg_setLineReg_of_ne {l l' : Line} (hne : l' ≠ l) (r : Option Level) :
    (s.setLineReg l' r).lineReg l = s.lineReg l := by
  cases l <;> cases l'
  case dtr.rts | rts.dtr => rfl
  all_goals exact absurd rfl hne

theorem Move.lineReg_eq (h : Move i s t) {l : Line} (hclose : i ≠ .closeDev) (hi : i.writesLine l = false) :
    t.lineReg l = s.lineReg l := by
  cases h with
  | wire w => rw [wireStep_frame]; cases l <;> rfl
  | disconnect hi' => exact absurd hi' hclose
  | line l' v hi' =>
    refine lineReg_setLineReg_of_ne (fun he => ?_) _
    rw [he, hi] at hi'; cases hi'
  | _ => cases l <;> rfl

theorem Move.lcOpen_eq (h : Move i s t) (hopen : ∀ path, i ≠ .openDev path) (hclose : i ≠ .closeDev) :
    t.lcOpen = s.lcOpen := by
  cases h with
  | wire w => exact wireStep_lcOpen s w
  | line l v => exact setLineReg_lcOpen s l _
  | connect path rx hi => exact absurd hi (hopen path)
  | disconnect hi => exact absurd hi hclose
  | _ => rfl

theorem Move.sequencer_eq (h : Move i s t) (hi : i.runsSequence = false) : t.rsSeq = s.rsSeq ∧ t.rsPc = s.rsPc := by
  cases h with
  | wire w => rw [wireStep_frame]; exact ⟨rfl, rfl⟩
  | line l v => exact ⟨setLineReg_rsSeq s l _, setLineReg_rsPc s l _⟩
  | sequence q pc hi' => cases hi.symm.trans hi'
  | _ => exact ⟨rfl, rfl⟩

/-! ### The fields that a chain of moves leaves -/

theorem Moves.cfg_eq (h : Moves i s t) : t.cfg = s.cfg :=
  h.keeps (P := fun u => u.cfg = s.cfg) (fun _ _ hm hu => hm.cfg_eq.trans hu) rfl

theorem Moves.trace_prefix (h : Moves i s t) : s.trace <+: t.trace :=
  h.keeps (P := fun u => s.trace <+: u.trace) (fun _ _ hm hu => hu.trans hm.trace_prefix) List.prefix_rfl

theorem Moves.keeps_strategy (h : Moves i s t) {strat : Strategy} (hs : s.rsStrategy = some strat) :
    t.rsStrategy = some strat :=
  h.keeps (P := fun u => u.rsStrategy = some strat) (fun _ _ hm => hm.keeps_strategy) hs

theorem Moves.now_le (h : Moves i s t) : s.now ≤ t.now :=
  h.keeps (P := fun u => s.now ≤ u.now) (fun _ _ hm hu => hu.trans hm.now_le) (Nat.le_refl _)

theorem Moves.now_eq (h : Moves i s t) (hi : i.takesTime = false) : t.now = s.now :=
  h.keeps (P := fun u => u.now = s.now) (fun _ _ hm hu => (hm.now_eq hi).trans hu) rfl

theorem Moves.lineReg_eq (h : Moves i s t) {l : Line} (hclose : i ≠ .closeDev) (hi : i.writesLine l = false) :
    t.lineReg l = s.lineReg l :=
  h.keeps (P := fun u => u.lineReg l = s.lineReg l) (fun _ _ hm hu => (hm.lineReg_eq hclose hi).trans hu) rfl

theorem Moves.lcOpen_eq (h : Moves i s t) (hopen : ∀ path, i ≠ .openDev path) (hclose : i ≠ .closeDev) :
    t.lcOpen = s.lcOpen :=
  h.keeps (P := fun u => u.lcOpen = s.lcOpen) (fun _ _ hm hu => (hm.lcOpen_eq hopen hclose).trans hu) rfl

theorem Moves.sequencer_eq (h : Moves i s t) (hi : i.runsSequence = false) :
    t.rsSeq = s.rsSeq ∧ t.rsPc = s.rsPc := by
  refine h.keeps (P := fun u => u.rsSeq = s.rsSeq ∧ u.rsPc = s.rsPc) (fun u v hm hu => ?_) ⟨rfl, rfl⟩
  obtain ⟨hseq, hpc⟩ := hm.sequencer_eq hi
  exact ⟨hseq.trans hu.1, hpc.trans hu.2⟩

end

/-! ### The statements -/

/-- Settles O43: a line register changes only by a move that writes that line, or by CLOSE. -/
theorem linesChangeOnlyByLineCommands : Obligations.LinesChangeOnlyByLineCommands := by
  intro i s t h hclose hboth henter hhard
  have hmoves := exec_moves h
  constructor
  · intro hdtr
    refine hmoves.lineReg_eq (l := .dtr) hclose ?_
    cases i with
    | setDtr v => exact absurd rfl (hdtr v)
    | setBoth d r => exact absurd rfl (hboth d r)
    | runEnter => exact absurd rfl henter
    | runHard => exact absurd rfl hhard
    | _ => rfl
  · intro hrts
    refine hmoves.lineReg_eq (l := .rts) hclose ?_
    cases i with
    | setRts v => exact absurd rfl (hrts v)
    | setBoth d r => exact absurd rfl (hboth d r)
    | runEnter => exact absurd rfl henter
    | runHard => exact absurd rfl hhard
    | _ => rfl

/-- Settles O46: the only move that writes the strategy latches it where there is none. -/
theorem strategyStaysLatched : Obligations.StrategyStaysLatched := by
  intro s t strat h hs hreset
  obtain ⟨i, -, hmoves⟩ := (turn_of_step h).moves hreset
  exact hmoves.keeps_strategy hs

/-- Settles O53: the only move that changes `now` adds to it, and no other command makes it. -/
theorem onlyWaitsAndReadsTakeTime : Obligations.OnlyWaitsAndReadsTakeTime := by
  intro i s t h
  refine ⟨(exec_moves h).now_le, fun hwait hread henter hhard => (exec_moves h).now_eq ?_⟩
  cases i with
  | wait n => exact absurd rfl (hwait n)
  | read n => exact absurd rfl (hread n)
  | runEnter => exact absurd rfl henter
  | runHard => exact absurd rfl hhard
  | _ => rfl

/-- Settles O57: a move appends to the trace or leaves it, and none writes a parameter; a block reset keeps the
parameters. -/
theorem traceOnlyGrows : Obligations.TraceOnlyGrows := by
  intro s t h
  by_cases hreset : ∃ rest, s.env.input = .blockReset :: rest
  · obtain ⟨rest, hin⟩ := hreset
    cases (step_of_blockReset hin).symm.trans h
    exact ⟨fun hno => absurd hin (hno rest), rfl⟩
  · obtain ⟨i, -, hmoves⟩ := (turn_of_step h).moves (not_exists.mp hreset)
    exact ⟨fun _ => hmoves.trace_prefix, hmoves.cfg_eq⟩

/-- Settles O56: the values are read off `State.reset`, and a block reset is a turn that takes nothing else. -/
theorem resetValues : Obligations.ResetValues :=
  ⟨rfl, rfl, rfl, rfl, rfl, rfl, rfl, rfl, rfl, rfl, rfl, rfl, rfl, fun _ _ hin => step_of_blockReset hin⟩

end Sys2Proof.Machine
end

section
/-! PROOFS. The invariant (Safety.lean) is kept by every step. Inside a command the step counter runs and the
record of commands is ahead of the connection, so the clauses on these two wait for the end of the command: what
the moves keep is the invariant of the state with both put aside. -/

namespace Sys2Proof.Machine

/-- The state with the sequencer idle and no command on record. -/
def State.settled (s : State) : State :=
  { s with rsSeq := none, rsPc := 0, env := { s.env with issued := [] } }

/-- The two clauses on the sequencer: it is idle with its counter at 0, or it stopped at a line write
(10_state.md R34, 43_reset_sequencer.md R229). -/
structure State.SeqInv (s : State) : Prop where
  idle    : s.rsSeq = none → s.rsPc = 0
  stopped : ∀ q, s.rsSeq = some q → ∃ e, (rom q)[s.rsPc]? = some e ∧ ∀ n, e ≠ .wait n

theorem settled_inv {s : State} (hs : s.Inv) : s.settled.Inv :=
  { hs with closedByClose := nofun, seqNone := fun _ => rfl, seqStopped := nofun }

theorem inv_of_settled {s : State} (hs : s.settled.Inv) (hseq : s.SeqInv)
    (hclose : s.lastIsClose = true → s.lcOpen = false) : s.Inv :=
  { hs with closedByClose := hclose, seqNone := hseq.idle, seqStopped := hseq.stopped }

theorem lcOpen_of_mayWrite {s : State} (hs : s.settled.Inv) (hw : s.mayWrite) : s.lcOpen = true := by
  cases ho : s.lcOpen with
  | true => rfl
  | false =>
    obtain ⟨-, -, -, -, hnone⟩ := hs.closedEmpty ho
    obtain h | h := hw
    · exact ho.symm.trans h
    · exact absurd hnone h

theorem within_of_le {cap : Option Nat} {m n : Nat} (hmn : m ≤ n) (h : within cap n = true) :
    within cap m = true := by
  cases cap with
  | none => rfl
  | some c => simp only [within, decide_eq_true_eq] at h ⊢; exact hmn.trans h

/-- Each move names the clauses it touches; CLOSE is no move of a block in which a WRITE waits. -/
theorem Move.keeps_inv {i : Instr} {s t : State} (h : Move i s t)
    (hs : s.settled.Inv ∧ (i = .closeDev → s.lcWriting = none)) :
    t.settled.Inv ∧ (i = .closeDev → t.lcWriting = none) := by
  obtain ⟨hs, hw⟩ := hs
  cases h with
  | event e => exact ⟨{ hs with }, hw⟩
  | result r => exact ⟨{ hs with }, hw⟩
  | surroundings e => exact ⟨{ hs with closedByClose := nofun }, hw⟩
  | wire w =>
    rw [wireStep_frame]
    exact ⟨{ hs with
      rxFits := wireStep_rxFits s w hs.rxFits
      txFits := within_of_le (wireStep_txLength s w) hs.txFits
      closedEmpty := fun hc => by
        obtain ⟨hrx, htx, hrest⟩ := hs.closedEmpty hc
        obtain ⟨hrx', htx'⟩ := wireStep_closed s w hc
        exact ⟨hrx'.trans hrx, htx'.trans htx, hrest⟩
      closedByClose := nofun }, hw⟩
  | deframe st buf _ hidle hfits => exact ⟨{ hs with idleEmpty := hidle, bufFits := hfits hs.bufFits }, hw⟩
  | connect path rx =>
    exact ⟨{ hs with
      rxFits := storeRx_fits _ _ _, txFits := within_zero _, formatConstant := fun _ => rfl
      closedEmpty := nofun, closedByClose := nofun }, hw⟩
  | disconnect hi =>
    exact ⟨{ hs with
      rxFits := within_zero _, txFits := within_zero _, formatConstant := nofun
      closedEmpty := fun _ => ⟨rfl, rfl, rfl, rfl, hw hi⟩, closedByClose := nofun }, hw⟩
  | baud rate => exact ⟨{ hs with }, hw⟩
  | emptyQueues =>
    exact ⟨{ hs with
      rxFits := within_zero _, txFits := within_zero _
      closedEmpty := fun hc => by
        obtain ⟨-, -, hrest⟩ := hs.closedEmpty hc
        exact ⟨rfl, rfl, hrest⟩ }, hw⟩
  | pop k =>
    exact ⟨{ hs with
      rxFits := within_of_le (List.drop_sublist k s.lcRx).length_le hs.rxFits
      closedEmpty := fun hc => by
        obtain ⟨hrx, hrest⟩ := hs.closedEmpty hc
        exact ⟨List.drop_eq_nil_of_le (by simp [show s.lcRx = [] from hrx]), hrest⟩ }, hw⟩
  | push b hm hroom =>
    have ho := lcOpen_of_mayWrite hs hm
    exact ⟨{ hs with
      txFits := by simpa [State.settled] using within_succ_of_hasRoom hroom
      closedEmpty := fun hc => absurd (ho.symm.trans hc) nofun }, hw⟩
  | waiting w hi hm hleft =>
    have ho := lcOpen_of_mayWrite hs hm
    obtain ⟨bytes, rfl⟩ := hi
    exact ⟨{ hs with closedEmpty := fun hc => absurd (ho.symm.trans hc) nofun, writingLeft := hleft }, nofun⟩
  | line l v _ ho =>
    cases l <;> exact ⟨{ hs with closedEmpty := fun hc => absurd (ho.symm.trans hc) nofun }, hw⟩
  | time left d _ hleft => exact ⟨{ hs with timerIdle := Nat.le_zero.mp (hleft.trans_eq hs.timerIdle) }, hw⟩
  | latch strat => exact ⟨{ hs with }, hw⟩
  | sequence q pc => exact ⟨{ hs with }, hw⟩

/-- No turn but a block reset breaks the invariant of the settled state. -/
theorem Turn.keeps_settled_inv {s t : State} (h : Turn s t) (hreset : ∀ rest, s.env.input ≠ .blockReset :: rest)
    (hs : s.Inv) : t.settled.Inv := by
  obtain ⟨i, hclose, hmoves⟩ := h.moves hreset
  exact (hmoves.keeps (fun _ _ hm => hm.keeps_inv) ⟨settled_inv hs, hclose⟩).1

/-! ### The sequencer -/

/-- Every delay of the ROM fits a timer of 7 bits (43_reset_sequencer.md R221). -/
theorem rom_wait_lt {q : SeqName} {n : Ms} (h : .wait n ∈ rom q) : n < 2 ^ 7 := by
  cases q <;> simp [rom] at h
  all_goals obtain rfl | rfl := h <;> decide

theorem fitsTimer_of_mem_rom {q : SeqName} {n : Ms} {timerW : Nat} (hw : 7 ≤ timerW) (h : .wait n ∈ rom q) :
    fitsTimer timerW n = true := by
  have hle : 2 ^ 7 ≤ 2 ^ timerW := Nat.pow_le_pow_right (by decide) hw
  exact decide_eq_true ((rom_wait_lt h).trans_le hle)

/-- A sequence under way at the place `rsPc`, with the entries `es` of its ROM to come. -/
structure State.RunsAt (s : State) (q : SeqName) (es : List RomEntry) : Prop where
  seq   : s.rsSeq = some q
  left  : (rom q).drop s.rsPc = es
  timer : 7 ≤ s.cfg.timerW

section
variable {s : State} {q : SeqName} {e : RomEntry} {es : List RomEntry}

theorem State.RunsAt.getElem?_rsPc (h : s.RunsAt q (e :: es)) : (rom q)[s.rsPc]? = some e := by
  rw [← List.head?_drop, h.left, List.head?_cons]

theorem State.RunsAt.next (h : s.RunsAt q (e :: es)) {t : State} (hseq : t.rsSeq = s.rsSeq) (hpc : t.rsPc = s.rsPc)
    (hcfg : t.cfg = s.cfg) : ({ t with rsPc := t.rsPc + 1 } : State).RunsAt q es where
  seq := hseq.trans h.seq
  left := by rw [hpc, ← List.tail_drop, h.left, List.tail_cons]
  timer := by rw [hcfg]; exact h.timer

/-- A sequence that stops at an entry that is a line write keeps its place there. -/
theorem State.RunsAt.stopped (h : s.RunsAt q (e :: es)) (he : ∀ n, e ≠ .wait n) {t : State}
    (hseq : t.rsSeq = s.rsSeq) (hpc : t.rsPc = s.rsPc) : t.SeqInv where
  idle hnone := by rw [hseq, h.seq] at hnone; cases hnone
  stopped q' hq := by
    rw [hseq, h.seq] at hq
    cases hq
    exact ⟨e, by rw [hpc, h.getElem?_rsPc], he⟩

/-- The line write of an entry: the sequence goes on at the next place, or stops at this one. -/
theorem State.RunsAt.lineCommand_seqInv (h : s.RunsAt q (e :: es)) (he : ∀ n, e ≠ .wait n)
    (ih : ∀ t : State, t.RunsAt q es → (t.runEntries q es).SeqInv) (l : Line) (v : Level) (f : BlockFault) :
    (s.lineCommand l v f (fun t => ({ t with rsPc := t.rsPc + 1 } : State).runEntries q es)).SeqInv := by
  obtain ⟨-, hl⟩ | ⟨-, hl⟩ := lineCommand_cases s l v f _ <;> rw [hl]
  · exact h.stopped he (by simp) (by simp)
  · exact ih _ (h.next (by simp) (by simp) (by simp))

end

/-- A sequence ends idle, or stopped at one of its line writes: its waits all fit the timer. -/
theorem runEntries_seqInv {q : SeqName} (es : List RomEntry) (s : State) (h : s.RunsAt q es) :
    (s.runEntries q es).SeqInv := by
  induction es generalizing s with
  | nil => exact { idle := fun _ => rfl, stopped := nofun }
  | cons e es ih =>
    unfold State.runEntries State.performEntry
    cases e with
    | setDtr v => exact h.lineCommand_seqInv nofun ih .dtr v _
    | setRts v => exact h.lineCommand_seqInv nofun ih .rts v _
    | wait n =>
      have hfits := fitsTimer_of_mem_rom h.timer (List.mem_of_getElem? h.getElem?_rsPc)
      simp only [hfits, if_true]
      exact ih _ (h.next (by simp [waitFor_eq]) (by simp [waitFor_eq]) (by simp [waitFor_eq]))

theorem runSeq_seqInv {s : State} (hw : 7 ≤ s.cfg.timerW) (q : SeqName) : (s.runSeq q).SeqInv :=
  runEntries_seqInv (rom q) _ { seq := rfl, left := rfl, timer := hw }

theorem State.SeqInv.congr {s t : State} (hs : s.SeqInv) (h : t.rsSeq = s.rsSeq ∧ t.rsPc = s.rsPc) : t.SeqInv := by
  obtain ⟨hseq, hpc⟩ := h
  exact { idle := by rw [hseq, hpc]; exact hs.idle, stopped := by rw [hseq, hpc]; exact hs.stopped }

theorem requireOpen_seqInv {s : State} {c : Cmd} {body : State} (hs : s.SeqInv) (hbody : body.SeqInv) :
    (s.requireOpen c body).SeqInv := by
  unfold State.requireOpen
  split
  · exact hbody
  · exact hs.congr ⟨rfl, rfl⟩

theorem exec_keeps_seqInv {i : Instr} {s t : State} (h : exec i s = .next t) (hs : s.SeqInv)
    (hw : 7 ≤ s.cfg.timerW) : t.SeqInv := by
  cases hi : i.runsSequence with
  | false => exact hs.congr ((exec_moves h).sequencer_eq hi)
  | true =>
    cases i with
    | runEnter =>
      cases h
      refine requireOpen_seqInv hs ?_
      split
      · exact hs.congr ⟨rfl, rfl⟩
      · exact runSeq_seqInv hw _
    | runHard =>
      cases h
      exact requireOpen_seqInv hs (runSeq_seqInv hw _)
    | _ => cases hi

theorem Turn.keeps_seqInv {s t : State} (h : Turn s t) (hs : s.SeqInv) (hw : 7 ≤ s.cfg.timerW) : t.SeqInv := by
  cases h with
  | blockReset rest => exact { idle := fun _ => rfl, stopped := nofun }
  | wire w rest => rw [wireStep_frame]; exact hs.congr ⟨rfl, rfl⟩
  | resume w _ hwait => exact hs.congr ((resumeWrite_moves hwait).sequencer_eq rfl)
  | idle => exact hs
  | command f bs rest _ _ i _ t h => exact exec_keeps_seqInv h (hs.congr ⟨rfl, rfl⟩) hw
  | reserved f bs rest => exact hs.congr ⟨rfl, rfl⟩

/-! ### After CLOSE -/

theorem exec_closeDev_lcOpen {s t : State} (h : exec .closeDev s = .next t) : t.lcOpen = false := by
  cases h
  split
  next => rfl
  next hc => simpa using hc

theorem lastIsClose_congr {s t : State} (h : t.env.issued = s.env.issued) : t.lastIsClose = s.lastIsClose := by
  unfold State.lastIsClose
  rw [h]

/-- The command just issued decides whether the last one is CLOSE. -/
theorem lastIsClose_of_issued_append {s : State} {cs : List (Format × List Byte)} {f : Format} {bs : List Byte}
    (h : s.env.issued = cs ++ [(f, bs)]) : s.lastIsClose = decide (decode f bs = .ok .closeDev) := by
  simp [State.lastIsClose, h]

theorem Turn.keeps_closedByClose {s t : State} (h : Turn s t) (hs : s.lastIsClose = true → s.lcOpen = false)
    (hlast : t.lastIsClose = true) : t.lcOpen = false := by
  cases h with
  | blockReset rest => rfl
  | wire w rest =>
    rw [lastIsClose_congr (wireStep_issued _ w)] at hlast
    rw [wireStep_lcOpen]
    exact hs hlast
  | resume w _ hw =>
    rw [State.resumeWrite, lastIsClose_congr (writeLoop_issued s _ _)] at hlast
    rw [(resumeWrite_moves hw).lcOpen_eq nofun nofun]
    exact hs hlast
  | idle => exact hs hlast
  | command f bs rest _ _ i hi t h =>
    rw [lastIsClose_of_issued_append ((exec_issued h).trans (issuing_issued s f bs rest)), hi] at hlast
    cases of_decide_eq_true hlast
    exact exec_closeDev_lcOpen h
  | reserved f bs rest _ _ c hi =>
    rw [lastIsClose_of_issued_append (s := (s.issuing f bs rest).raise (.badCmd c))
      (issuing_issued s f bs rest), hi] at hlast
    cases of_decide_eq_true hlast

/-! ### The statements -/

/-- Settles O58: in the state after reset every clause is a fact about fixed values. -/
theorem invariantAtReset : Obligations.InvariantAtReset :=
  { timerWide := by decide
    idleEmpty := fun _ => rfl
    bufFits := rfl
    rxFits := rfl
    txFits := rfl
    formatConstant := nofun
    closedEmpty := fun _ => ⟨rfl, rfl, rfl, rfl, rfl⟩
    closedByClose := nofun
    writingLeft := nofun
    timerIdle := rfl
    seqNone := fun _ => rfl
    seqStopped := nofun }

/-- A block reset keeps the parameters, and every clause on them holds of an empty queue. -/
theorem blockReset_inv {s : State} (hw : 7 ≤ s.cfg.timerW) : s.blockReset.Inv :=
  { invariantAtReset with
    timerWide := hw, bufFits := within_zero _, rxFits := within_zero _, txFits := within_zero _ }

/-- Settles O59: the moves of a turn keep the clauses that hold at every point of a command, and the clauses on the
sequencer and on CLOSE hold again at its end. -/
theorem stepKeepsInvariant : Obligations.StepKeepsInvariant := by
  intro s t hs h
  have hturn := turn_of_step h
  by_cases hreset : ∃ rest, s.env.input = .blockReset :: rest
  · obtain ⟨rest, hin⟩ := hreset
    cases (step_of_blockReset hin).symm.trans h
    exact blockReset_inv hs.timerWide
  · exact inv_of_settled (hturn.keeps_settled_inv (not_exists.mp hreset) hs)
      (hturn.keeps_seqInv { idle := hs.seqNone, stopped := hs.seqStopped } hs.timerWide)
      (hturn.keeps_closedByClose hs.closedByClose)

end Sys2Proof.Machine
end

section
/-! PROOFS. The memory of the block (20_memory.md): who writes the deframer (R80), what the wire does to the queues
between commands and at a point of a command (R69, R70, R78), and the order of the bytes that leave (R62). -/

namespace Sys2Proof.Machine

/-! ### The deframer -/

theorem Move.deframer_eq {i : Instr} {s t : State} (h : Move i s t) (hi : i.feedsDeframer = false) :
    t.fdState = s.fdState ∧ t.fdBuf = s.fdBuf := by
  cases h with
  | wire w => rw [wireStep_frame]; exact ⟨rfl, rfl⟩
  | line l v => exact ⟨setLineReg_fdState s l _, setLineReg_fdBuf s l _⟩
  | deframe st buf hi' => cases hi.symm.trans hi'
  | _ => exact ⟨rfl, rfl⟩

theorem Moves.deframer_eq {i : Instr} {s t : State} (h : Moves i s t) (hi : i.feedsDeframer = false) :
    t.fdState = s.fdState ∧ t.fdBuf = s.fdBuf := by
  refine h.keeps (P := fun u => u.fdState = s.fdState ∧ u.fdBuf = s.fdBuf) (fun u v hm hu => ?_) ⟨rfl, rfl⟩
  obtain ⟨hstate, hbuf⟩ := hm.deframer_eq hi
  exact ⟨hstate.trans hu.1, hbuf.trans hu.2⟩

/-! ### One step of the wire -/

/-- A step with a turn of the wire takes that step. -/
theorem step_of_wire {s : State} {w : WireStep} {rest : List Input} (hin : s.env.input = .wire w :: rest) :
    step s = .next ((s.withInput rest).wireStep w) := by
  simp only [step, takeTurn, hin]

section
variable (s : State)

theorem wireStep_txTake {k : Nat} (ho : s.lcOpen = true) (hpos : 1 ≤ k) (hk : k ≤ s.lcTx.length) :
    s.wireStep (.txTake k) =
      { s with lcTx := s.lcTx.drop k, env := { s.env with taken := s.env.taken ++ s.lcTx.take k } } :=
  if_pos ⟨ho, hpos, hk⟩

theorem storeRx_unbounded {p : Params} (hcap : p.rxFifoCap = none) (queue new : List Byte) :
    storeRx p queue new = queue ++ new := by
  simp only [storeRx, hcap]

theorem wireStep_rxDeliver (bs : List Byte) (ho : s.lcOpen = true) (hcap : s.cfg.rxFifoCap = none) :
    s.wireStep (.rxDeliver bs) = { s with lcRx := s.lcRx ++ bs } := by
  simp [State.wireStep, ho, storeRx_unbounded hcap]

/-- On a closed block neither step that acts on a queue is enabled (log 13). -/
theorem wireStep_queue_of_closed {w : WireStep} {k : Nat} {bs : List Byte} (hw : w = .txTake k ∨ w = .rxDeliver bs)
    (hc : s.lcOpen = false) : s.wireStep w = s := by
  obtain rfl | rfl := hw <;> simp [State.wireStep, hc]

/-- What a step of the wire can do: nothing, take from the head of the transmit queue, deliver, or sample the lines
(20_memory.md R69, R70, R78). -/
theorem wireStep_cases (w : WireStep) :
    s.wireStep w = s ∨
    (∃ k, s.wireStep w =
      { s with lcTx := s.lcTx.drop k, env := { s.env with taken := s.env.taken ++ s.lcTx.take k } }) ∨
    (∃ bs, s.wireStep w = { s with lcRx := storeRx s.cfg s.lcRx bs }) ∨
    ∃ seen, s.wireStep w = { s with env := { s.env with samples := s.env.samples ++ [seen] } } := by
  cases w with
  | txTake k =>
    by_cases hk : s.lcOpen = true ∧ 1 ≤ k ∧ k ≤ s.lcTx.length
    · exact .inr (.inl ⟨k, if_pos hk⟩)
    · exact .inl (if_neg hk)
  | rxDeliver bs =>
    by_cases ho : s.lcOpen = true
    · exact .inr (.inr (.inl ⟨bs, if_pos ho⟩))
    · exact .inl (if_neg ho)
  | observe d r => exact .inr (.inr (.inr ⟨s.levelsSeen d r, rfl⟩))

theorem wireStep_taken_prefix (w : WireStep) : s.env.taken <+: (s.wireStep w).env.taken := by
  obtain h | ⟨k, h⟩ | ⟨bs, h⟩ | ⟨seen, h⟩ := wireStep_cases s w <;> rw [h]
  exact List.prefix_append _ _

theorem wireStep_rx_prefix (w : WireStep) (hcap : s.cfg.rxFifoCap = none) : s.lcRx <+: (s.wireStep w).lcRx := by
  obtain h | ⟨k, h⟩ | ⟨bs, h⟩ | ⟨seen, h⟩ := wireStep_cases s w <;> rw [h]
  rw [storeRx_unbounded hcap]
  exact List.prefix_append _ _

/-! ### The turn of the wire at a point of a command -/

theorem wireSteps_taken_prefix (ms : List WireStep) : s.env.taken <+: (s.wireSteps ms).env.taken := by
  induction ms generalizing s with
  | nil => exact List.prefix_rfl
  | cons m ms ih => exact (wireStep_taken_prefix s m).trans (ih _)

theorem wireSteps_rx_prefix (ms : List WireStep) (hcap : s.cfg.rxFifoCap = none) :
    s.lcRx <+: (s.wireSteps ms).lcRx := by
  induction ms generalizing s with
  | nil => exact List.prefix_rfl
  | cons m ms ih =>
    have hcap' : (s.wireStep m).cfg.rxFifoCap = none := by rw [wireStep_cfg, hcap]
    exact (wireStep_rx_prefix s m hcap).trans (ih _ hcap')

theorem wireTurn_taken_prefix : s.env.taken <+: s.wireTurn.env.taken := wireSteps_taken_prefix s.drawn _

theorem wireTurn_rx_prefix (hcap : s.cfg.rxFifoCap = none) : s.lcRx <+: s.wireTurn.lcRx :=
  wireSteps_rx_prefix s.drawn _ hcap

/-- The turn takes some bytes from the head of the transmit queue, and the rest stays queued. -/
theorem wireTurn_takes_head :
    ∃ k, s.wireTurn.lcTx = s.lcTx.drop k ∧ s.wireTurn.env.taken = s.env.taken ++ s.lcTx.take k := by
  obtain ⟨x, hx⟩ := wireTurn_taken_prefix s
  have hsplit : x ++ s.wireTurn.lcTx = s.lcTx := by
    have hsent := wireTurn_sent s
    rwa [← hx, List.append_assoc, List.append_cancel_left_eq] at hsent
  refine ⟨x.length, ?_, ?_⟩
  · rw [← hsplit, List.drop_left]
  · rw [← hsplit, List.take_left, hx]

end

/-! ### The order of the bytes that leave -/

/-- The bytes on their way out: those the wire has taken (log 12), then those still queued. -/
def State.outgoing (s : State) : List Byte := s.env.taken ++ s.lcTx

/-- From `s` to `t` nothing has been queued: the record of taken bytes has grown by bytes from the head of the
queue, and what is left of the queue may have been lost from its tail on. -/
structure State.DrainsTo (s t : State) : Prop where
  taken    : s.env.taken <+: t.env.taken
  outgoing : t.outgoing <+: s.outgoing

theorem State.DrainsTo.exists_take {s t : State} (h : s.DrainsTo t) :
    ∃ k, k ≤ s.lcTx.length ∧ t.env.taken = s.env.taken ++ s.lcTx.take k := by
  obtain ⟨x, hx⟩ := h.taken
  have hhead : x <+: s.lcTx := by
    have hout : t.env.taken <+: s.env.taken ++ s.lcTx := (List.prefix_append _ _).trans h.outgoing
    rwa [← hx, List.prefix_append_right_inj] at hout
  exact ⟨x.length, hhead.length_le, by rw [← hx, ← List.prefix_iff_eq_take.mp hhead]⟩

section
variable {s t u : State}

theorem State.DrainsTo.trans (h : s.DrainsTo t) (h' : t.DrainsTo u) : s.DrainsTo u where
  taken := h.taken.trans h'.taken
  outgoing := h'.outgoing.trans h.outgoing

theorem drainsTo_of_eq (henv : t.env = s.env) (htx : t.lcTx = s.lcTx) : s.DrainsTo t where
  taken := by rw [henv]
  outgoing := by rw [State.outgoing, State.outgoing, henv, htx]

theorem State.DrainsTo.from_eq (h : t.DrainsTo u) (henv : t.env = s.env) (htx : t.lcTx = s.lcTx) : s.DrainsTo u :=
  (drainsTo_of_eq henv htx).trans h

theorem drainsTo_of_emptied (henv : t.env = s.env) (htx : t.lcTx = []) : s.DrainsTo t where
  taken := by rw [henv]
  outgoing := by rw [State.outgoing, henv, htx, List.append_nil]; exact List.prefix_append _ _

theorem State.DrainsTo.then_eq (h : s.DrainsTo t) (henv : u.env = t.env) (htx : u.lcTx = t.lcTx) : s.DrainsTo u :=
  h.trans (drainsTo_of_eq henv htx)

theorem State.DrainsTo.then_emptied (h : s.DrainsTo t) (henv : u.env = t.env) (htx : u.lcTx = []) : s.DrainsTo u :=
  h.trans (drainsTo_of_emptied henv htx)

end

section
variable (s : State)

theorem wireTurn_drains : s.DrainsTo s.wireTurn where
  taken := wireTurn_taken_prefix s
  outgoing := by rw [State.outgoing, wireTurn_sent]; exact List.prefix_rfl

theorem requireOpen_drains {c : Cmd} {body : State} (hbody : s.DrainsTo body) :
    s.DrainsTo (s.requireOpen c body) := by
  unfold State.requireOpen
  split
  · exact hbody
  · exact drainsTo_of_eq rfl rfl

theorem lineCommand_drains {l : Line} {v : Level} {f : BlockFault} {after : State → State}
    (hafter : ∀ t : State, t.DrainsTo (after t)) : s.DrainsTo (s.lineCommand l v f after) := by
  obtain ⟨-, h⟩ | ⟨-, h⟩ := lineCommand_cases s l v f after <;> rw [h]
  · exact (wireTurn_drains s).then_eq rfl rfl
  · exact ((wireTurn_drains s).then_eq (writeLine_env _ l v) (writeLine_lcTx _ l v)).trans (hafter _)

theorem waitFor_drains (n : Ms) : s.DrainsTo (s.waitFor n) := by
  rw [waitFor_eq]
  exact (wireTurn_drains s).then_eq rfl rfl

theorem readWait_drains (timeout : Ms) : s.DrainsTo (s.readWait timeout) :=
  (wireTurn_drains s).then_eq rfl rfl

theorem readBytes_drains : s.DrainsTo s.readBytes :=
  drainsTo_of_eq rfl rfl

theorem runEntries_drains (q : SeqName) (es : List RomEntry) : s.DrainsTo (s.runEntries q es) := by
  induction es generalizing s with
  | nil => exact drainsTo_of_eq rfl rfl
  | cons e es ih =>
    have hafter : ∀ t : State, t.DrainsTo ({ t with rsPc := t.rsPc + 1 }.runEntries q es) :=
      fun t => (ih { t with rsPc := t.rsPc + 1 }).from_eq rfl rfl
    cases e with
    | setDtr v | setRts v => exact lineCommand_drains s hafter
    | wait n =>
      unfold State.runEntries State.performEntry
      simp only
      split
      · exact (waitFor_drains s n).trans (hafter _)
      · exact drainsTo_of_eq rfl rfl

theorem runSeq_drains (q : SeqName) : s.DrainsTo (s.runSeq q) :=
  (runEntries_drains { s with rsSeq := some q, rsPc := 0 } q (rom q)).from_eq rfl rfl

theorem fdFeed_drains (b : Byte) : s.DrainsTo (s.fdFeed b) := by
  rw [fdFeed_frame]
  exact drainsTo_of_eq rfl rfl

theorem fdAppend_drains (b : Byte) : s.DrainsTo (s.fdAppend b) := by
  obtain ⟨-, h⟩ | ⟨cap, h⟩ := fdAppend_cases s b <;> rw [h] <;> exact drainsTo_of_eq rfl rfl

/-- For every byte, also one that is not of this class (log 25). -/
theorem fdData_drains (b : Byte) : s.DrainsTo (s.fdData b) := by
  unfold State.fdData
  split
  · exact drainsTo_of_eq rfl rfl
  · exact fdAppend_drains s b
  · exact fdAppend_drains s b

end

/-- No command but WRITE queues a byte: the wire takes from the head, and OPEN, CLOSE, SETBAUD and FLUSH empty the
queue (20_memory.md R69, 42_line_control.md R180, R183, R185). -/
theorem exec_drains {i : Instr} {s t : State} (h : exec i s = .next t) (hi : ∀ bytes, i ≠ .write bytes) :
    s.DrainsTo t := by
  cases i <;> cases h
  case write bytes => exact absurd rfl (hi bytes)
  case feEnd | feEsc | feLit | fdReset => exact drainsTo_of_eq rfl rfl
  case fdEnd => exact fdFeed_drains s endByte
  case fdEsc => exact fdFeed_drains s escByte
  case fdEscEnd => exact fdFeed_drains s escEndByte
  case fdEscEsc => exact fdFeed_drains s escEscByte
  case fdData b => exact fdData_drains s b
  case fdFeed b => exact fdFeed_drains s b
  case encode | select => split <;> exact drainsTo_of_eq rfl rfl
  case openDev path =>
    repeat' split
    · exact drainsTo_of_eq rfl rfl
    · exact (wireTurn_drains s).then_emptied rfl rfl
    · exact (wireTurn_drains s).then_eq rfl rfl
  case closeDev =>
    split
    · exact drainsTo_of_emptied rfl rfl
    · exact drainsTo_of_eq rfl rfl
  case setBaud rate =>
    refine requireOpen_drains s ?_
    repeat' split
    · exact (wireTurn_drains s).then_eq rfl rfl
    · exact (wireTurn_drains s).then_emptied rfl rfl
    · exact drainsTo_of_eq rfl rfl
  case flush =>
    refine requireOpen_drains s ?_
    split
    · exact (wireTurn_drains s).then_eq rfl rfl
    · exact (wireTurn_drains s).then_emptied rfl rfl
  case read timeout =>
    refine requireOpen_drains s ?_
    split
    · exact (readWait_drains s timeout).then_eq rfl rfl
    · exact (readWait_drains s timeout).trans (readBytes_drains _)
  case setDtr v | setRts v =>
    exact requireOpen_drains s (lineCommand_drains s fun _ => drainsTo_of_eq rfl rfl)
  case setBoth d r =>
    refine requireOpen_drains s ?_
    split <;> exact lineCommand_drains s fun t => lineCommand_drains t fun _ => drainsTo_of_eq rfl rfl
  case wait n =>
    split
    · exact (waitFor_drains s n).then_eq rfl rfl
    · exact drainsTo_of_eq rfl rfl
  case runEnter =>
    refine requireOpen_drains s ?_
    split
    · exact drainsTo_of_eq rfl rfl
    · exact runSeq_drains s _
  case runHard => exact requireOpen_drains s (runSeq_drains s _)

/-- The loop of WRITE, however it ends, has added the bytes it accepted behind those already on their way
(42_line_control.md R186). -/
theorem writeLoop_outgoing (s : State) (done bytes : List Byte) :
    ∃ accepted, accepted <+: bytes ∧ (s.writeLoop done bytes).outgoing = s.outgoing ++ accepted := by
  induction bytes generalizing s done with
  | nil => exact ⟨[], List.prefix_rfl, (List.append_nil _).symm⟩
  | cons b rest ih =>
    have hstop : s.wireTurn.outgoing = s.outgoing ++ [] := (wireTurn_sent s).trans (List.append_nil _).symm
    unfold State.writeLoop
    split
    · split
      · exact ⟨[], List.nil_prefix, hstop⟩
      · obtain ⟨accepted, hprefix, hout⟩ := ih (s.wireTurn.pushTx b) (done ++ [b])
        have hpush : (s.wireTurn.pushTx b).outgoing = s.outgoing ++ [b] := by
          simp [State.outgoing, ← List.append_assoc, wireTurn_sent]
        refine ⟨b :: accepted, List.cons_prefix_cons.mpr ⟨rfl, hprefix⟩, ?_⟩
        rw [hout, hpush, List.append_assoc, List.singleton_append]
    · exact ⟨[], List.nil_prefix, hstop⟩

/-! ### The statements -/

/-- Settles O28: the only move that writes the deframer is open to its own instructions only. -/
theorem otherCommandsLeaveDeframer : Obligations.OtherCommandsLeaveDeframer := by
  intro i s t h hwire hfeed hreset
  refine (exec_moves h).deframer_eq ?_
  cases i with
  | fdEnd | fdEsc | fdEscEnd | fdEscEsc | fdData b => exact absurd rfl hwire
  | fdFeed b => exact absurd rfl (hfeed b)
  | fdReset => exact absurd rfl hreset
  | _ => rfl

/-- Settles O37: the loop of WRITE adds what it accepted behind the bytes on their way, and every other command
only drains the queue. -/
theorem bytesLeaveInOrder : Obligations.BytesLeaveInOrder := by
  intro i s t h
  refine ⟨?_, fun hi => (exec_drains h hi).exists_take⟩
  rintro bytes rfl
  cases h
  unfold State.requireOpen
  split
  · exact writeLoop_outgoing s [] bytes
  · exact ⟨[], List.nil_prefix, (List.append_nil _).symm⟩

/-- Settles O55: the fields by the frame of a turn, the queues by what its steps take and deliver. -/
theorem wireTurnTouchesQueuesOnly : Obligations.WireTurnTouchesQueuesOnly := fun s =>
  ⟨wireTurn_frame s, wireTurn_takes_head s, wireTurn_rx_prefix s, wireTurn_closed s,
    wireTurn_input s, wireTurn_issued s, wireTurn_drawAt s⟩

/-- Settles O54: the step takes the turn off the list, and then the law of that step of the wire says what it does. -/
theorem wireStepsActOnQueues : Obligations.WireStepsActOnQueues := by
  intro s rest
  refine ⟨fun k hin ho hpos hk => ?_, fun bs hin ho hcap => ?_, fun k bs w hw hin hc => ?_, fun d r hin => ?_⟩
  · rw [step_of_wire hin, wireStep_txTake (s.withInput rest) ho hpos hk]; rfl
  · rw [step_of_wire hin, wireStep_rxDeliver (s.withInput rest) bs ho hcap]; rfl
  · rw [step_of_wire hin, wireStep_queue_of_closed (s.withInput rest) hw hc]; rfl
  · rw [step_of_wire hin]; rfl

end Sys2Proof.Machine
end

section
/-! PROOFS. The encodings (30_encoding.md): the three decoders read back what the encoder wrote, what they read is
well formed, and the instructions of the byte classes and the reserved codes act as their rows say. -/

namespace Sys2Proof

/-! ### The byte classes (R92, R93) -/

theorem isLiteralPayload_iff (p : Byte) : isLiteralPayload p = true ↔
    p ≠ Machine.endByte ∧ p ≠ Machine.escByte := by
  simp [isLiteralPayload]

theorem isDataByte_iff (b : Byte) : isDataByte b = true ↔
    b ≠ Machine.endByte ∧ b ≠ Machine.escByte ∧ b ≠ Machine.escEndByte ∧ b ≠ Machine.escEscByte := by
  simp [isDataByte, and_assoc]

theorem decodePayloadByte_of_isLiteralPayload {p : Byte} (h : isLiteralPayload p = true) :
    decodePayloadByte p = .feLit p := by
  obtain ⟨hend, hesc⟩ := (isLiteralPayload_iff p).mp h
  simp only [decodePayloadByte, hend, hesc, if_false]

theorem decodeWireByte_of_isDataByte {b : Byte} (h : isDataByte b = true) : decodeWireByte b = .fdData b := by
  obtain ⟨hend, hesc, hescEnd, hescEsc⟩ := (isDataByte_iff b).mp h
  simp only [decodeWireByte, hend, hesc, hescEnd, hescEsc, if_false]

/-- The catch-all row is reached only past the rows above it, so its byte is of its class. -/
theorem decodePayloadByte_wellFormed_format (p : Byte) :
    (decodePayloadByte p).wellFormed = true ∧ (decodePayloadByte p).format = .payload := by
  unfold decodePayloadByte
  split_ifs with hend hesc
  · exact ⟨rfl, rfl⟩
  · exact ⟨rfl, rfl⟩
  · exact ⟨(isLiteralPayload_iff p).mpr ⟨hend, hesc⟩, rfl⟩

theorem decodeWireByte_wellFormed_format (b : Byte) :
    (decodeWireByte b).wellFormed = true ∧ (decodeWireByte b).format = .wire := by
  unfold decodeWireByte
  split_ifs with hend hesc hescEnd hescEsc
  · exact ⟨rfl, rfl⟩
  · exact ⟨rfl, rfl⟩
  · exact ⟨rfl, rfl⟩
  · exact ⟨rfl, rfl⟩
  · exact ⟨(isDataByte_iff b).mpr ⟨hend, hesc, hescEnd, hescEsc⟩, rfl⟩

/-! ### The commands (R97, R98, R99) -/

theorem code_of_ofCode {c : Byte} {k : Cmd} (h : Cmd.ofCode c = some k) : k.code = c := by
  have hk := List.find?_some (p := fun k : Cmd => k.code == c) h
  exact beq_iff_eq.mp hk

theorem code_lt (c : Cmd) : c.code.toNat < 0x10 := by cases c <;> decide

theorem ofCode_of_le {c : Byte} (h : 0x10 ≤ c.toNat) : Cmd.ofCode c = none := by
  refine List.find?_eq_none.mpr fun k _ hk => ?_
  have hlt := code_lt k
  rw [beq_iff_eq.mp hk] at hlt
  omega

theorem decodeCommand_of_reserved {c : Byte} (h : 0x10 ≤ c.toNat) (operands : List Byte) :
    decodeCommand (c :: operands) = .reserved c := by
  simp only [decodeCommand, ofCode_of_le h]

theorem decodeCommand_eq_ok_iff {bs : List Byte} {i : Instr} :
    decodeCommand bs = .ok i ↔
      ∃ (c : Cmd) (operands : List Byte), bs = c.code :: operands ∧ decodeOperands c operands = some i := by
  constructor
  · intro h
    unfold decodeCommand at h
    split at h
    next => cases h
    next code operands =>
      split at h
      next => cases h
      next c hc =>
        split at h
        next j hj => cases h; exact ⟨c, operands, by rw [code_of_ofCode hc], hj⟩
        next => cases h
  · rintro ⟨c, operands, rfl, hops⟩
    simp only [decodeCommand, ofCode_code, hops]

theorem decodeOperands_format {c : Cmd} {operands : List Byte} {i : Instr} (h : decodeOperands c operands = some i) :
    i.format = .command := by
  cases c with
  | encode | openDev | write | read | wait => cases h; rfl
  | fdFeed | fdReset | closeDev | setBaud | flush | runEnter | runHard =>
    simp only [decodeOperands] at h
    split at h <;> cases h; rfl
  | setDtr | setRts =>
    simp only [decodeOperands] at h
    split at h
    · obtain ⟨v, -, rfl⟩ := Option.map_eq_some_iff.mp h; rfl
    · cases h
  | setBoth =>
    simp only [decodeOperands] at h
    split at h
    · split at h <;> cases h; rfl
    · cases h
  | select => obtain ⟨ids, -, rfl⟩ := Option.map_eq_some_iff.mp h; rfl

/-- Every operand of a command is legal (R99): only the byte classes restrict theirs. -/
theorem wellFormed_of_format_command {i : Instr} (h : i.format = .command) : i.wellFormed = true := by
  cases i with
  | feLit | fdData => cases h
  | _ => rfl

/-! ### The operand bytes -/

/-- The four bytes of a rate, put together again. -/
theorem rate_of_bytes (rate : Rate) :
    (rate.extractLsb' 24 8 ++ rate.extractLsb' 16 8 ++ rate.extractLsb' 8 8 ++ rate.extractLsb' 0 8 : Rate) = rate := by
  iterate 3 rw [BitVec.extractLsb'_append_extractLsb'_eq_extractLsb' (by rfl)]
  exact BitVec.extractLsb'_eq_self

theorem decodeIds_encodeId (vid pid : Option DevId) : decodeIds (encodeId vid ++ encodeId pid) = some (vid, pid) := by
  have hpid := decodeId_encodeId pid []
  rw [List.append_nil] at hpid
  simp only [decodeIds, decodeId_encodeId, hpid]

/-! ### The encoder, format by format -/

theorem decode_encode_of_payload {i : Instr} (hf : i.format = .payload) (hwf : i.wellFormed = true) :
    decode .payload (encode i) = .ok i := by
  cases i with
  | feEnd | feEsc => rfl
  | feLit p => exact congrArg Decoded.ok (decodePayloadByte_of_isLiteralPayload hwf)
  | _ => cases hf

theorem decode_encode_of_wire {i : Instr} (hf : i.format = .wire) (hwf : i.wellFormed = true) :
    decode .wire (encode i) = .ok i := by
  cases i with
  | fdEnd | fdEsc | fdEscEnd | fdEscEsc => rfl
  | fdData b => exact congrArg Decoded.ok (decodeWireByte_of_isDataByte hwf)
  | _ => cases hf

/-- A command is encoded as its code and then bytes from which its operands are read back. -/
theorem encode_of_command {i : Instr} (hf : i.format = .command) :
    ∃ (c : Cmd) (operands : List Byte), encode i = c.code :: operands ∧ decodeOperands c operands = some i := by
  cases i with
  | feEnd | feEsc | feLit _ | fdEnd | fdEsc | fdEscEnd | fdEscEsc | fdData _ => cases hf
  | encode _ => exact ⟨.encode, _, rfl, rfl⟩
  | fdFeed _ => exact ⟨.fdFeed, _, rfl, rfl⟩
  | fdReset => exact ⟨.fdReset, _, rfl, rfl⟩
  | openDev _ => exact ⟨.openDev, _, rfl, rfl⟩
  | closeDev => exact ⟨.closeDev, _, rfl, rfl⟩
  | setBaud rate => exact ⟨.setBaud, _, rfl, congrArg (some ∘ Instr.setBaud) (rate_of_bytes rate)⟩
  | flush => exact ⟨.flush, _, rfl, rfl⟩
  | write _ => exact ⟨.write, _, rfl, rfl⟩
  | read n => exact ⟨.read, _, rfl, congrArg (some ∘ Instr.read) (natOfBytes_bytesOfNat n)⟩
  | setDtr v => exact ⟨.setDtr, _, rfl, congrArg (Option.map Instr.setDtr) (decodeLevel_encodeLevel v)⟩
  | setRts v => exact ⟨.setRts, _, rfl, congrArg (Option.map Instr.setRts) (decodeLevel_encodeLevel v)⟩
  | setBoth d r => exact ⟨.setBoth, _, rfl, by simp only [decodeOperands, decodeLevel_encodeLevel]⟩
  | wait n => exact ⟨.wait, _, rfl, congrArg (some ∘ Instr.wait) (natOfBytes_bytesOfNat n)⟩
  | select vid pid => exact ⟨.select, _, rfl, by simp only [decodeOperands, decodeIds_encodeId, Option.map_some]⟩
  | runEnter => exact ⟨.runEnter, _, rfl, rfl⟩
  | runHard => exact ⟨.runHard, _, rfl, rfl⟩

/-! ### The statements -/

/-- Settles O2: a byte class reads back its own byte, and a command its code and then its operands. -/
theorem decodeOfEncode : Obligations.DecodeOfEncode := by
  intro i hwf
  cases hf : i.format with
  | payload => exact decode_encode_of_payload hf hwf
  | wire => exact decode_encode_of_wire hf hwf
  | command => exact decodeCommand_eq_ok_iff.mpr (encode_of_command hf)

/-- Settles O3: a decoder of one byte answers with a row of its own table, the command decoder with a command. -/
theorem decodedIsWellFormed : Obligations.DecodedIsWellFormed := by
  intro f bs i h
  cases f with
  | payload =>
    simp only [decode] at h
    split at h
    next p => cases h; exact decodePayloadByte_wellFormed_format p
    next => cases h
  | wire =>
    simp only [decode] at h
    split at h
    next b => cases h; exact decodeWireByte_wellFormed_format b
    next => cases h
  | command =>
    obtain ⟨c, operands, -, hops⟩ := decodeCommand_eq_ok_iff.mp h
    exact ⟨wellFormed_of_format_command (decodeOperands_format hops), decodeOperands_format hops⟩

/-- Settles O1: the fifteen words are closed terms, so the decoders run on them. -/
theorem opcodeWordsDecode : Obligations.OpcodeWordsDecode := by
  unfold Obligations.OpcodeWordsDecode
  decide

end Sys2Proof

namespace Sys2Proof.Machine

/-- Settles O4: the classification is the payload decoder's, and each row only hands back its bytes. -/
theorem payloadClassesStuff : Obligations.PayloadClassesStuff :=
  ⟨fun _ => rfl, fun _ => ⟨rfl, rfl, fun _ _ _ => rfl⟩⟩

/-- Settles O6: no command has the code, so the turn is run as a reserved one. -/
theorem reservedCodeRaisesBadCmd : Obligations.ReservedCodeRaisesBadCmd := by
  intro s c operands rest hc hw hin
  have hd : decode .command (c :: operands) = .reserved c := decodeCommand_of_reserved hc operands
  refine ⟨hd, ?_⟩
  rw [step_of_hostTurn hw hin]
  simp only [runPresented, hd]
  rfl

/-- Settles O12: the receive classification picks the meaning that FD_FEED picks. -/
theorem feedActsAsItsClass : Obligations.FeedActsAsItsClass := fun b s =>
  ⟨(exec_decodeWireByte b s).symm, rfl⟩

end Sys2Proof.Machine
end

section
/-! PROOFS. The framer (40_framer.md): the stuffed bytes are code words of which none begins another, without a
frame-end byte and with a follower for every escape byte; the length, the alphabet and the injectivity of a frame
follow by induction over the payload. -/

namespace Sys2Proof.Machine

/-! ### The stuffing of one byte (R121, R122, R123) -/

/-- The payload bytes that are escaped, each with the byte that follows the escape byte. -/
inductive Escapes : Byte → Byte → Prop
  | frameEnd : Escapes endByte escEndByte
  | escape : Escapes escByte escEscByte

theorem Escapes.follower {p f : Byte} (h : Escapes p f) : f = escEndByte ∨ f = escEscByte := by
  cases h with
  | frameEnd => exact .inl rfl
  | escape => exact .inr rfl

/-- The follower tells which byte was escaped. -/
theorem Escapes.eq_of_follower {p q f g : Byte} (hp : Escapes p f) (hq : Escapes q g) (hfg : f = g) : p = q := by
  cases hp <;> cases hq
  case frameEnd.frameEnd | escape.escape => rfl
  case frameEnd.escape | escape.frameEnd => exact absurd hfg (by decide)

theorem Escapes.not_literal {p f : Byte} (h : Escapes p f) : isLiteralPayload p = false := by
  cases h <;> rfl

/-- A payload byte is stuffed to the escape byte and its follower, or stands for itself. -/
theorem stuff_cases (p : Byte) :
    (∃ f, Escapes p f ∧ stuff p = [escByte, f]) ∨ (isLiteralPayload p = true ∧ stuff p = [p]) := by
  unfold stuff
  split_ifs with hend hesc
  · exact .inl ⟨_, hend ▸ .frameEnd, rfl⟩
  · exact .inl ⟨_, hesc ▸ .escape, rfl⟩
  · exact .inr ⟨(isLiteralPayload_iff p).mpr ⟨hend, hesc⟩, rfl⟩

theorem not_isLiteralPayload (p : Byte) : (!isLiteralPayload p) = (p = 0xC0 || p = 0xDB) := by
  simp only [isLiteralPayload, bne, Bool.not_and, Bool.not_not, beq_eq_decide]

theorem length_stuff (p : Byte) : (stuff p).length = if isLiteralPayload p = true then 1 else 2 := by
  obtain ⟨f, hf, h⟩ | ⟨hlit, h⟩ := stuff_cases p
  · simp [h, hf.not_literal]
  · simp [h, hlit]

theorem endByte_notMem_stuff (p : Byte) : endByte ∉ stuff p := by
  obtain ⟨f, hf, h⟩ | ⟨hlit, h⟩ := stuff_cases p <;> rw [h]
  · obtain rfl | rfl := hf.follower <;> decide
  · exact fun hmem => ((isLiteralPayload_iff p).mp hlit).1 (List.mem_singleton.mp hmem).symm

/-- No code word begins another (R128): the first word of a stream and the rest of it are determined. -/
theorem stuff_append_inj {p q : Byte} {xs ys : List Byte} (h : stuff p ++ xs = stuff q ++ ys) : p = q ∧ xs = ys := by
  obtain ⟨f, hf, hp⟩ | ⟨hplit, hp⟩ := stuff_cases p <;> obtain ⟨g, hg, hq⟩ | ⟨hqlit, hq⟩ := stuff_cases q <;>
    rw [hp, hq] at h <;> injection h with hhead htail
  · injection htail with hfollower hrest
    exact ⟨hf.eq_of_follower hg hfollower, hrest⟩
  · exact absurd hhead.symm ((isLiteralPayload_iff q).mp hqlit).2
  · exact absurd hhead ((isLiteralPayload_iff p).mp hplit).2
  · exact ⟨hhead, htail⟩

/-! ### The stuffed body of a payload (R120) -/

theorem stuffAll_eq_flatMap (payload : List Byte) : stuffAll payload = payload.flatMap stuff := by
  induction payload with
  | nil => rfl
  | cons p ps ih => rw [stuffAll, ih, List.flatMap_cons]

theorem length_stuffAll (payload : List Byte) :
    (stuffAll payload).length = payload.length + (payload.filter (fun p => !isLiteralPayload p)).length := by
  induction payload with
  | nil => rfl
  | cons p ps ih =>
    rw [stuffAll, List.length_append, length_stuff, ih, List.filter_cons]
    cases isLiteralPayload p <;> simp <;> omega

theorem endByte_notMem_stuffAll (payload : List Byte) : endByte ∉ stuffAll payload := by
  rw [stuffAll_eq_flatMap, List.mem_flatMap]
  rintro ⟨p, -, hp⟩
  exact endByte_notMem_stuff p hp

/-- A code word is never empty, so the body of a non-empty payload is not the empty body. -/
theorem stuffAll_cons_ne_nil (p : Byte) (ps : List Byte) : stuffAll (p :: ps) ≠ [] := by
  obtain ⟨f, -, h⟩ | ⟨-, h⟩ := stuff_cases p <;> simp [stuffAll, h]

theorem stuffAll_injective {ps qs : List Byte} (h : stuffAll ps = stuffAll qs) : ps = qs := by
  induction ps generalizing qs with
  | nil =>
    cases qs with
    | nil => rfl
    | cons q qs => exact absurd h.symm (stuffAll_cons_ne_nil q qs)
  | cons p ps ih =>
    cases qs with
    | nil => exact absurd h (stuffAll_cons_ne_nil p ps)
    | cons q qs =>
      obtain ⟨rfl, hrest⟩ := stuff_append_inj h
      rw [ih hrest]

/-! ### Every escape byte has its follower (R127) -/

/-- In these bytes every escape byte is followed by 0xDC or 0xDD. -/
def EscapesFollowed (bs : List Byte) : Prop :=
  ∀ k : Nat, bs[k]? = some escByte → bs[k + 1]? = some escEndByte ∨ bs[k + 1]? = some escEscByte

theorem escapesFollowed_nil : EscapesFollowed [] := fun _ h => nomatch h

theorem EscapesFollowed.cons {b : Byte} {bs : List Byte} (h : EscapesFollowed bs) (hb : b ≠ escByte) :
    EscapesFollowed (b :: bs) := by
  intro k hk
  cases k with
  | zero => exact absurd (Option.some.inj hk) hb
  | succ k => exact h k hk

theorem EscapesFollowed.escape {p f : Byte} {bs : List Byte} (h : EscapesFollowed bs) (hf : Escapes p f) :
    EscapesFollowed (escByte :: f :: bs) := by
  have hne : f ≠ escByte := by obtain rfl | rfl := hf.follower <;> decide
  intro k hk
  cases k with
  | zero => exact hf.follower.imp (congrArg some) (congrArg some)
  | succ k => exact h.cons hne k hk

theorem EscapesFollowed.stuffAll_append {bs : List Byte} (h : EscapesFollowed bs) (payload : List Byte) :
    EscapesFollowed (stuffAll payload ++ bs) := by
  induction payload with
  | nil => exact h
  | cons p ps ih =>
    rw [stuffAll, List.append_assoc]
    obtain ⟨f, hf, hp⟩ | ⟨hlit, hp⟩ := stuff_cases p <;> rw [hp]
    · exact ih.escape hf
    · exact ih.cons ((isLiteralPayload_iff p).mp hlit).2

/-! ### The frame (R90, R120) -/

theorem length_frame (payload : List Byte) : (frame payload).length = (stuffAll payload).length + 2 := by
  simp [frame]

theorem getElem?_frame_zero (payload : List Byte) : (frame payload)[0]? = some endByte := rfl

theorem getElem?_frame_last (payload : List Byte) :
    (frame payload)[(frame payload).length - 1]? = some endByte := by
  simp [frame]

/-- A frame-end byte in a frame is not in the body, so it is the first byte or the last. -/
theorem eq_zero_or_last_of_getElem?_frame {payload : List Byte} {k : Nat}
    (h : (frame payload)[k]? = some endByte) : k = 0 ∨ k = (frame payload).length - 1 := by
  obtain _ | j := k
  · exact .inl rfl
  · right
    have hlt : j + 1 < (frame payload).length := (List.getElem?_eq_some_iff.mp h).1
    rw [length_frame] at hlt ⊢
    by_contra hne
    have hbody : j < (stuffAll payload).length := by omega
    rw [frame, List.getElem?_cons_succ, List.getElem?_append_left hbody] at h
    exact endByte_notMem_stuffAll payload (List.mem_of_getElem? h)

theorem escapesFollowed_frame (payload : List Byte) : EscapesFollowed (frame payload) :=
  ((escapesFollowed_nil.cons (b := endByte) (by decide)).stuffAll_append payload).cons (by decide)

theorem frame_injective {p q : List Byte} (h : frame p = frame q) : p = q :=
  stuffAll_injective (List.append_cancel_right (List.cons.inj h).2)

/-! ### The command (R120, R278) -/

theorem exec_encode_of_within {payload : List Byte} {s : State} (h : within s.cfg.payloadMax payload.length = true) :
    exec (.encode payload) s = .next (s.ret (.bytes (frame payload))) := by
  simp only [exec, execEncode, h, if_true]

theorem exec_encode_of_not_within {payload : List Byte} {s : State}
    (h : within s.cfg.payloadMax payload.length = false) :
    exec (.encode payload) s = .next (s.raise (.badOperand payload.length)) := by
  simp only [exec, execEncode, h, Bool.false_eq_true, if_false]

/-! ### The statements -/

/-- Settles O7: the body is the stuffing of each byte in turn, and a payload is refused exactly past the bound. -/
theorem encodeReturnsFrame : Obligations.EncodeReturnsFrame := by
  intro payload s
  refine ⟨fun h => ?_, fun bound hbound hlt => ?_⟩
  · rw [exec_encode_of_within h, frame, stuffAll_eq_flatMap]
    rfl
  · have h : within s.cfg.payloadMax payload.length = false := by simp [within, hbound, hlt]
    exact exec_encode_of_not_within h

/-- Settles O9: each escaped byte adds one, and there are at most as many of them as bytes. -/
theorem frameLengthLaw : Obligations.FrameLengthLaw := by
  intro payload
  have hlen : (frame payload).length =
      payload.length + (payload.filter (fun p => p = 0xC0 || p = 0xDB)).length + 2 := by
    simp only [length_frame, length_stuffAll, not_isLiteralPayload]
  have hle := List.length_filter_le (fun p : Byte => p = 0xC0 || p = 0xDB) payload
  exact ⟨hlen, by omega, by omega⟩

/-- Settles O10: the body holds no frame-end byte, and every code word brings the follower of its escape byte. -/
theorem frameAlphabet : Obligations.FrameAlphabet := fun payload =>
  ⟨getElem?_frame_zero payload, getElem?_frame_last payload, by simp [length_frame],
    fun _ => eq_zero_or_last_of_getElem?_frame, escapesFollowed_frame payload⟩

/-- Settles O11: no code word begins another, so the body splits back into the payload in one way. -/
theorem frameIsInjective : Obligations.FrameIsInjective := fun _ _ => frame_injective

/-- Settles O8: the result is the frame, which no state enters. -/
theorem encodeIsPure : Obligations.EncodeIsPure := fun payload => ⟨frame payload, fun _ => exec_encode_of_within⟩

end Sys2Proof.Machine
end

section
/-! PROOFS. The deframer (41_deframer.md): what one received byte does, said once for each state; the feeding of a
list of bytes as a fold; the frame of a payload read back (R154), the resynchronisation (R155) and the streams on
which ESC_FOLLOWER_POLICY does not matter (R157). -/

namespace Sys2Proof.Machine

/-! ### One received byte, by the state it finds (R140 to R150) -/

/-- What an escape sequence stands for, told by its follower (41_deframer.md R147 to R149). -/
def unescape (f : Byte) : Byte :=
  if f = escEndByte then endByte else if f = escEscByte then escByte else f

theorem unescape_of_ne {f : Byte} (hend : f ≠ escEndByte) (hesc : f ≠ escEscByte) : unescape f = f := by
  simp only [unescape, hend, hesc, if_false]

/-- The deframer undoes the framer's escape (40_framer.md R121, R122). -/
theorem Escapes.unescape_eq {p f : Byte} (h : Escapes p f) : unescape f = p := by
  cases h <;> rfl

/-- In a frame, with these bytes accumulated and no packet returned by the last byte. -/
def State.inFrame (s : State) (buf : List Byte) : State :=
  { s with fdState := .started, fdBuf := buf, result := .packet none }

theorem fdArm_eq (s : State) : s.fdArm = s.inFrame [] := rfl

theorem fdAppend_eq_inFrame {s : State} (h : hasRoom s.cfg.bufCap s.fdBuf.length = true) (b : Byte) :
    s.fdAppend b = s.inFrame (s.fdBuf ++ [b]) := fdAppend_room s b h

section
variable {s : State}

theorem fdFeed_of_idle (h : s.fdState = .idle) (b : Byte) :
    s.fdFeed b = if b = endByte then s.fdArm else s.fdDiscard := by
  simp [State.fdFeed, State.fdEnd, State.fdEsc, State.fdEscEnd, State.fdEscEsc, State.fdData, h]

theorem fdFeed_of_started (h : s.fdState = .started) (b : Byte) :
    s.fdFeed b = if b = endByte then s.fdEndInFrame else if b = escByte then s.fdArmEscape else s.fdAppend b := by
  unfold State.fdFeed
  split_ifs with hend hesc hescEnd hescEsc
  · simp only [State.fdEnd, h]
  · simp only [State.fdEsc, h]
  · simp only [State.fdEscEnd, h, hescEnd]
  · simp only [State.fdEscEsc, h, hescEsc]
  · simp only [State.fdData, h]

theorem fdFeed_of_escape (h : s.fdState = .escape) {b : Byte} (hb : b ≠ endByte) :
    s.fdFeed b = s.fdAppend (unescape b) := by
  rw [State.fdFeed, if_neg hb]
  split_ifs with hesc hescEnd hescEsc
  · simp only [State.fdEsc, h, hesc]; rfl
  · simp only [State.fdEscEnd, h, hescEnd]; rfl
  · simp only [State.fdEscEsc, h, hescEsc]; rfl
  · simp only [State.fdData, h, unescape_of_ne hescEnd hescEsc]

/-- R150: one of the policies takes the frame-end byte as data. -/
theorem fdFeed_endByte_of_literal (h : s.fdState = .escape) (hp : s.cfg.escPolicy = .literal) :
    s.fdFeed endByte = s.fdAppend endByte := by
  simp only [State.fdFeed, if_true, State.fdEnd, h, hp]

/-- R150: the other one takes it as it is taken in STARTED. -/
theorem fdFeed_endByte_of_endFirst (h : s.fdState = .escape) (hp : s.cfg.escPolicy = .endFirst) :
    s.fdFeed endByte = s.fdEndInFrame := by
  simp only [State.fdFeed, if_true, State.fdEnd, h, hp]

theorem fdEndInFrame_of_nil (h : s.fdBuf = []) : s.fdEndInFrame = s.inFrame [] := if_pos h

theorem fdEndInFrame_of_ne_nil (h : s.fdBuf ≠ []) : s.fdEndInFrame = s.fdComplete := if_neg h

theorem fdFeed_started_endByte (h : s.fdState = .started) : s.fdFeed endByte = s.fdEndInFrame :=
  (fdFeed_of_started h endByte).trans (if_pos rfl)

theorem fdFeed_started_escByte (h : s.fdState = .started) : s.fdFeed escByte = s.fdArmEscape :=
  (fdFeed_of_started h escByte).trans rfl

theorem fdFeed_started_of_ne (h : s.fdState = .started) {b : Byte} (hend : b ≠ endByte) (hesc : b ≠ escByte) :
    s.fdFeed b = s.fdAppend b := by
  rw [fdFeed_of_started h, if_neg hend, if_neg hesc]

end

@[simp] theorem fdFeed_cfg (s : State) (b : Byte) : (s.fdFeed b).cfg = s.cfg := by rw [fdFeed_frame]

/-- With an unbounded buffer nothing leaves the deframer in ESCAPE but an escape byte inside a frame. -/
theorem eq_escByte_of_fdFeed_escape {s : State} {b : Byte} (hcap : s.cfg.bufCap = none)
    (h : (s.fdFeed b).fdState = .escape) : b = escByte := by
  have happend : ∀ c, (s.fdAppend c).fdState ≠ .escape := by
    intro c
    rw [fdAppend_room s c (by rw [hcap]; rfl)]
    exact nofun
  have hendInFrame : s.fdEndInFrame.fdState ≠ .escape := by
    unfold State.fdEndInFrame
    split_ifs <;> exact nofun
  cases hs : s.fdState with
  | idle =>
    rw [fdFeed_of_idle hs] at h
    split_ifs at h
    · cases h
    · cases hs.symm.trans h
  | started =>
    rw [fdFeed_of_started hs] at h
    split_ifs at h with hend hesc
    · exact absurd h hendInFrame
    · exact hesc
    · exact absurd h (happend b)
  | escape =>
    by_cases hend : b = endByte
    · subst hend
      cases hp : s.cfg.escPolicy with
      | literal => exact absurd (fdFeed_endByte_of_literal hs hp ▸ h) (happend endByte)
      | endFirst => exact absurd (fdFeed_endByte_of_endFirst hs hp ▸ h) hendInFrame
    · exact absurd (fdFeed_of_escape hs hend ▸ h) (happend _)

/-! ### The commands that receive one byte (R93, R140) -/

/-- FD_FEED and the row of the byte's class act alike, each as one received byte. -/
theorem exec_eq_fdFeed {i : Instr} {b : Byte} (h : i = .fdFeed b ∨ i = decodeWireByte b) (s : State) :
    exec i s = .next (s.fdFeed b) := by
  obtain rfl | rfl := h
  · rfl
  · exact exec_decodeWireByte b s

/-! ### Feeding a list of bytes (R152) -/

theorem feedN_append (xs ys : List Byte) (s : State) :
    feedN (xs ++ ys) s =
      ((feedN xs s).1 ++ (feedN ys (feedN xs s).2).1, (feedN ys (feedN xs s).2).2) := by
  induction xs generalizing s with
  | nil => rfl
  | cons x xs ih => rw [List.cons_append, feedN_cons, ih, feedN_cons, List.append_assoc]

theorem feedN_cfg (bs : List Byte) (s : State) : (feedN bs s).2.cfg = s.cfg := by
  induction bs generalizing s with
  | nil => rfl
  | cons b bs ih => rw [feedN_cons, ih, fdFeed_cfg]

/-- FD_FEEDN of one more chunk, after the packets and the state that the earlier chunks gave. -/
def feedChunk (acc : List (List Byte) × State) (chunk : List Byte) : List (List Byte) × State :=
  (acc.1 ++ (feedN chunk acc.2).1, (feedN chunk acc.2).2)

theorem foldl_feedChunk (chunks : List (List Byte)) (acc : List (List Byte) × State) :
    chunks.foldl feedChunk acc = feedChunk acc chunks.flatten := by
  induction chunks generalizing acc with
  | nil => simp [feedChunk, feedN_nil]
  | cons c cs ih => simp only [List.foldl_cons, List.flatten_cons, ih, feedChunk, feedN_append, List.append_assoc]

/-! ### A frame, read back (R154) -/

theorem hasRoom_of_within {cap : Option Nat} {m n : Nat} (hmn : m < n) (h : within cap n = true) :
    hasRoom cap m = true := by
  cases cap with
  | none => rfl
  | some c => simp only [within, hasRoom, decide_eq_true_eq] at h ⊢; omega

/-- A code word adds its payload byte to the buffer. -/
theorem feedN_stuff (s : State) (buf : List Byte) (p : Byte) (hroom : hasRoom s.cfg.bufCap buf.length = true) :
    feedN (stuff p) (s.inFrame buf) = ([], s.inFrame (buf ++ [p])) := by
  obtain ⟨f, hf, h⟩ | ⟨hlit, h⟩ := stuff_cases p
  · have hne : f ≠ endByte := by obtain rfl | rfl := hf.follower <;> decide
    have hfollower : (s.inFrame buf).fdArmEscape.fdFeed f = s.inFrame (buf ++ [p]) := by
      rw [fdFeed_of_escape rfl hne, hf.unescape_eq, fdAppend_room _ p hroom]
      rfl
    rw [h, feedN_cons, fdFeed_started_escByte rfl, feedN_cons, hfollower, feedN_nil]
    rfl
  · obtain ⟨hend, hesc⟩ := (isLiteralPayload_iff p).mp hlit
    have hbyte : (s.inFrame buf).fdFeed p = s.inFrame (buf ++ [p]) := by
      rw [fdFeed_started_of_ne rfl hend hesc, fdAppend_room _ p hroom]
      rfl
    rw [h, feedN_cons, hbyte, feedN_nil]
    rfl

theorem feedN_stuffAll (s : State) (payload buf : List Byte)
    (hfits : within s.cfg.bufCap (buf.length + payload.length) = true) :
    feedN (stuffAll payload) (s.inFrame buf) = ([], s.inFrame (buf ++ payload)) := by
  induction payload generalizing buf with
  | nil => rw [List.append_nil]; rfl
  | cons p ps ih =>
    have hroom : hasRoom s.cfg.bufCap buf.length = true := hasRoom_of_within (by simp) hfits
    have hrest : within s.cfg.bufCap ((buf ++ [p]).length + ps.length) = true :=
      within_of_le (by simp; omega) hfits
    rw [stuffAll, feedN_append, feedN_stuff s buf p hroom, ih _ hrest, List.append_assoc]
    rfl

/-- Outside a frame, or in a frame of which no byte has come yet. -/
def State.awaitsFrame (s : State) : Prop := (s.fdState = .idle ∨ s.fdState = .started) ∧ s.fdBuf = []

theorem State.awaitsFrame.fdFeed_endByte {s : State} (h : s.awaitsFrame) : s.fdFeed endByte = s.inFrame [] := by
  obtain ⟨hidle | hstarted, hbuf⟩ := h
  · rw [fdFeed_of_idle hidle, if_pos rfl, fdArm_eq]
  · rw [fdFeed_started_endByte hstarted, fdEndInFrame_of_nil hbuf]

/-- The first frame-end byte opens the frame, the body fills the buffer with the payload, and what is left is the
last frame-end byte. -/
theorem feedN_frame {s : State} {payload : List Byte} (hs : s.awaitsFrame)
    (hfits : within s.cfg.bufCap payload.length = true) :
    feedN (frame payload) s = feedN [endByte] (s.inFrame payload) := by
  have hbody := feedN_stuffAll s payload [] (by simpa using hfits)
  rw [frame, feedN_cons, hs.fdFeed_endByte, feedN_append, hbody]
  rfl

theorem feedN_frame_of_ne_nil {s : State} {payload : List Byte} (hs : s.awaitsFrame)
    (hfits : within s.cfg.bufCap payload.length = true) (hne : payload ≠ []) :
    feedN (frame payload) s = ([payload], (s.inFrame payload).fdComplete) := by
  rw [feedN_frame hs hfits, feedN_cons, fdFeed_started_endByte rfl, fdEndInFrame_of_ne_nil hne]
  rfl

theorem feedN_frame_nil {s : State} (hs : s.awaitsFrame) : feedN (frame []) s = ([], s.inFrame []) := by
  rw [feedN_frame hs (within_zero _), feedN_cons, fdFeed_started_endByte rfl, fdEndInFrame_of_nil rfl]
  rfl

/-- Settles O24: the frame-end byte that closes the frame finds the payload in the buffer, or finds it empty. -/
theorem frameRoundTrip : Obligations.FrameRoundTrip := by
  intro payload s hs hbuf hfits
  refine ⟨feedN_frame_of_ne_nil ⟨hs, hbuf⟩ hfits, ?_⟩
  rintro rfl
  exact feedN_frame_nil ⟨hs, hbuf⟩

/-! ### Resynchronisation (R155) -/

theorem fdEndInFrame_awaitsFrame (s : State) : s.fdEndInFrame.awaitsFrame := by
  by_cases hbuf : s.fdBuf = []
  · rw [fdEndInFrame_of_nil hbuf]
    exact ⟨.inr rfl, rfl⟩
  · rw [fdEndInFrame_of_ne_nil hbuf]
    exact ⟨.inl rfl, rfl⟩

/-- Only in ESCAPE, where it may be data, does a frame-end byte leave bytes in the buffer. -/
theorem fdFeed_endByte_awaitsFrame {s : State} (h : s.fdState ≠ .escape) : (s.fdFeed endByte).awaitsFrame := by
  cases hs : s.fdState with
  | idle =>
    rw [fdFeed_of_idle hs, if_pos rfl]
    exact ⟨.inr rfl, rfl⟩
  | started =>
    rw [fdFeed_started_endByte hs]
    exact fdEndInFrame_awaitsFrame s
  | escape => exact absurd hs h

/-- The first frame-end byte leads out of ESCAPE, so the second one is no data. -/
theorem feedN_two_ends_awaitsFrame {s : State} (hcap : s.cfg.bufCap = none) :
    (feedN [endByte, endByte] s).2.awaitsFrame := by
  have hfirst : (s.fdFeed endByte).fdState ≠ .escape := fun h =>
    absurd (eq_escByte_of_fdFeed_escape hcap h) (by decide)
  exact fdFeed_endByte_awaitsFrame hfirst

/-- Settles O25: after the two frame-end bytes the deframer awaits a frame, and reads the next one back. The premise
of R24 is not needed: in IDLE a frame-end byte empties the buffer. -/
theorem twoEndsResynchronise : Obligations.TwoEndsResynchronise := by
  intro s hcap _
  have hawaits := feedN_two_ends_awaitsFrame hcap
  refine ⟨hawaits.1, hawaits.2, fun payload hne => ?_⟩
  have hfits : within (feedN [endByte, endByte] s).2.cfg.bufCap payload.length = true := by
    rw [feedN_cfg, hcap]
    rfl
  exact congrArg Prod.fst (feedN_frame_of_ne_nil hawaits hfits hne)

/-! ### The policy and the well-escaped streams (R157) -/

/-- The same state under this ESC_FOLLOWER_POLICY. -/
def State.withPolicy (s : State) (p : EscPolicy) : State := { s with cfg := { s.cfg with escPolicy := p } }

theorem fdAppend_withPolicy (s : State) (p : EscPolicy) (b : Byte) :
    (s.withPolicy p).fdAppend b = (s.fdAppend b).withPolicy p := by
  cases hroom : hasRoom s.cfg.bufCap s.fdBuf.length with
  | true =>
    rw [fdAppend_room s b hroom, fdAppend_room (s.withPolicy p) b hroom]
    rfl
  | false =>
    cases hc : s.cfg.bufCap with
    | none => simp [hasRoom, hc] at hroom
    | some cap =>
      have hfull : cap ≤ s.fdBuf.length := by simpa [hasRoom, hc] using hroom
      rw [fdAppend_full s b cap hc hfull, fdAppend_full (s.withPolicy p) b cap hc hfull]
      rfl

theorem fdEndInFrame_withPolicy (s : State) (p : EscPolicy) :
    (s.withPolicy p).fdEndInFrame = s.fdEndInFrame.withPolicy p := by
  unfold State.fdEndInFrame
  split_ifs with hp hs hs
  · rfl
  · exact absurd hp hs
  · exact absurd hs hp
  · rfl

/-- The policy is asked about a frame-end byte in ESCAPE, and nowhere else. -/
theorem fdFeed_withPolicy {s : State} {b : Byte} (h : s.fdState = .escape → b ≠ endByte) (p : EscPolicy) :
    (s.withPolicy p).fdFeed b = (s.fdFeed b).withPolicy p := by
  cases hs : s.fdState with
  | idle =>
    rw [fdFeed_of_idle (s := s.withPolicy p) hs, fdFeed_of_idle hs]
    split_ifs <;> rfl
  | started =>
    rw [fdFeed_of_started (s := s.withPolicy p) hs, fdFeed_of_started hs]
    split_ifs
    · exact fdEndInFrame_withPolicy s p
    · rfl
    · exact fdAppend_withPolicy s p b
  | escape =>
    rw [fdFeed_of_escape (s := s.withPolicy p) hs (h hs), fdFeed_of_escape hs (h hs)]
    exact fdAppend_withPolicy s p _

theorem wellEscaped_cons (s : State) (b : Byte) (bs : List Byte) :
    s.wellEscaped (b :: bs) = true ↔
      (s.fdState = .escape → b = escEndByte ∨ b = escEscByte) ∧ (s.fdFeed b).wellEscaped bs = true := by
  simp only [State.wellEscaped, Bool.and_eq_true, Bool.or_eq_true, bne_iff_ne, beq_iff_eq, or_assoc, ne_eq,
    imp_iff_not_or]

theorem feedN_withPolicy {bs : List Byte} {s : State} (h : s.wellEscaped bs = true) (p : EscPolicy) :
    feedN bs (s.withPolicy p) = ((feedN bs s).1, (feedN bs s).2.withPolicy p) := by
  induction bs generalizing s with
  | nil => rfl
  | cons b bs ih =>
    obtain ⟨hfollower, hrest⟩ := (wellEscaped_cons s b bs).mp h
    have hne : s.fdState = .escape → b ≠ endByte := fun hs => by
      obtain rfl | rfl := hfollower hs <;> decide
    rw [feedN_cons, fdFeed_withPolicy hne, ih hrest, feedN_cons]
    rfl

/-- Settles O26: in a well-escaped stream no frame-end byte comes in ESCAPE. -/
theorem wellEscapedIgnoresPolicy : Obligations.WellEscapedIgnoresPolicy := by
  intro bs s p h
  exact (feedN_withPolicy h p).trans (by rw [State.withPolicy, feedN_cfg])

/-- R127 is enough: the deframer is in ESCAPE only right after an escape byte, and there the follower comes. -/
theorem wellEscaped_of_escapesFollowed {bs : List Byte} {s : State} (hcap : s.cfg.bufCap = none)
    (hs : s.fdState = .escape → bs[0]? = some escEndByte ∨ bs[0]? = some escEscByte) (h : EscapesFollowed bs) :
    s.wellEscaped bs = true := by
  induction bs generalizing s with
  | nil => rfl
  | cons b bs ih =>
    refine (wellEscaped_cons s b bs).mpr ⟨fun hesc => (hs hesc).imp Option.some.inj Option.some.inj, ?_⟩
    refine ih (by rw [fdFeed_cfg, hcap]) (fun hesc => ?_) (fun k hk => h (k + 1) hk)
    exact h 0 (congrArg some (eq_escByte_of_fdFeed_escape hcap hesc))

theorem escapesFollowed_flatMap_frame (payloads : List (List Byte)) : EscapesFollowed (payloads.flatMap frame) := by
  induction payloads with
  | nil => exact escapesFollowed_nil
  | cons payload rest ih =>
    rw [List.flatMap_cons, frame, List.cons_append, List.append_assoc]
    exact ((ih.cons (b := endByte) (by decide)).stuffAll_append payload).cons (by decide)

/-- Settles O27: in a concatenation of frames every escape byte has its follower. -/
theorem framesAreWellEscaped : Obligations.FramesAreWellEscaped := by
  intro payloads s hcap hidle _
  exact wellEscaped_of_escapesFollowed hcap (fun hesc => by cases hidle.symm.trans hesc)
    (escapesFollowed_flatMap_frame payloads)

/-! ### The statements about one FD_FEED and about FD_FEEDN -/

/-- Settles O19: each of the three cases appends, and there is no room. -/
theorem fullBufferOverflows : Obligations.FullBufferOverflows := by
  intro s cap b hcap hlen hcase
  have happend : ∃ c, s.fdFeed b = s.fdAppend c := by
    obtain ⟨hs, hend, hesc⟩ | ⟨hs, hend⟩ | ⟨hs, rfl, hp⟩ := hcase
    · exact ⟨b, fdFeed_started_of_ne hs hend hesc⟩
    · exact ⟨_, fdFeed_of_escape hs hend⟩
    · exact ⟨_, fdFeed_endByte_of_literal hs hp⟩
  obtain ⟨c, hc⟩ := happend
  rw [exec_eq_fdFeed (.inl rfl), hc, fdAppend_full s c cap hcap hlen.ge]
  rfl

/-- Settles O21: a packet is handed out where the byte completes one, and an append has room. -/
theorem feedIsTotalAndLocal : Obligations.FeedIsTotalAndLocal := by
  intro s b hcap
  refine ⟨s.fdFeed b, rfl, fdFeed_frame s b, ?_⟩
  obtain h | ⟨-, h⟩ | ⟨-, hbuf, h⟩ | ⟨-, h⟩ | ⟨-, c, h⟩ := fdFeed_cases s b <;> rw [h]
  · exact .inl ⟨rfl, rfl⟩
  · exact .inl ⟨rfl, rfl⟩
  · exact .inr ⟨s.fdBuf, hbuf, rfl, rfl⟩
  · exact .inl ⟨rfl, rfl⟩
  · rw [fdAppend_room s c (by rw [hcap]; rfl)]
    exact .inl ⟨rfl, rfl⟩

/-- Settles O22: a chunk goes on from where the chunks before it stopped. -/
theorem chunkInvariance : Obligations.ChunkInvariance := fun chunks s =>
  (foldl_feedChunk chunks ([], s)).symm

/-- Settles O23, by induction on the chunk. -/
theorem feedNIsItsFeeds : Obligations.FeedNIsItsFeeds := by
  intro chunk s
  induction chunk generalizing s with
  | nil => rfl
  | cons b bs ih =>
    rw [feedN_cons]
    exact ih (s.fdFeed b)

/-- Settles O13: whichever command receives the byte, the frame-end byte arms and any other one is discarded. -/
theorem feedInIdle : Obligations.FeedInIdle := by
  intro s hs
  have hdiscard : ∀ i b, b ≠ endByte → i = .fdFeed b ∨ i = decodeWireByte b → exec i s = .next s.fdDiscard := by
    intro i b hb hi
    rw [exec_eq_fdFeed hi, fdFeed_of_idle hs, if_neg hb]
  refine ⟨fun i hi => ?_, fun b hb => hdiscard _ b hb (.inl rfl), ?_⟩
  · rw [exec_eq_fdFeed (b := endByte) hi, fdFeed_of_idle hs, if_pos rfl]
    rfl
  · rintro i (rfl | rfl | rfl | ⟨b, hb, rfl⟩)
    · exact hdiscard _ escByte (by decide) (.inr rfl)
    · exact hdiscard _ escEndByte (by decide) (.inr rfl)
    · exact hdiscard _ escEscByte (by decide) (.inr rfl)
    · exact hdiscard _ b ((isDataByte_iff b).mp hb).1 (.inr (decodeWireByte_of_isDataByte hb).symm)

/-- Settles O14: the row of STARTED for each of the two bytes. -/
theorem feedStartedCompletesOrEscapes : Obligations.FeedStartedCompletesOrEscapes := by
  intro s hs
  refine ⟨fun hbuf i hi => ?_, fun i hi => ?_⟩
  · rw [exec_eq_fdFeed (b := endByte) hi, fdFeed_started_endByte hs, fdEndInFrame_of_ne_nil hbuf]
    rfl
  · rw [exec_eq_fdFeed (b := escByte) hi, fdFeed_started_escByte hs]
    rfl

/-- Settles O15: a frame-end byte finds nothing to complete, and every byte of another class is appended. -/
theorem feedStartedRearmsOrAccumulates : Obligations.FeedStartedRearmsOrAccumulates := by
  intro s hs
  refine ⟨fun hbuf i hi => ?_, fun hroom => ?_⟩
  · rw [exec_eq_fdFeed (b := endByte) hi, fdFeed_started_endByte hs, fdEndInFrame_of_nil hbuf]
    rfl
  · have happend : ∀ i b, b ≠ endByte → b ≠ escByte → i = .fdFeed b ∨ i = decodeWireByte b →
        exec i s = .next (s.inFrame (s.fdBuf ++ [b])) := by
      intro i b hend hesc hi
      rw [exec_eq_fdFeed hi, fdFeed_started_of_ne hs hend hesc, fdAppend_eq_inFrame hroom]
    refine ⟨fun b hend hesc => happend _ b hend hesc (.inl rfl),
      happend _ escEndByte (by decide) (by decide) (.inr rfl),
      happend _ escEscByte (by decide) (by decide) (.inr rfl), fun b hb => ?_⟩
    obtain ⟨hend, hesc, -, -⟩ := (isDataByte_iff b).mp hb
    exact happend _ b hend hesc (.inr (decodeWireByte_of_isDataByte hb).symm)

/-- Settles O16: the two followers are the framer's escapes, read back. -/
theorem feedEscapeUnescapes : Obligations.FeedEscapeUnescapes := by
  intro s hs hroom
  have hunescape : ∀ p f, Escapes p f → ∀ i, i = .fdFeed f ∨ i = decodeWireByte f →
      exec i s = .next (s.inFrame (s.fdBuf ++ [p])) := fun p f hf i hi => by
    have hne : f ≠ endByte := by obtain rfl | rfl := hf.follower <;> decide
    rw [exec_eq_fdFeed hi, fdFeed_of_escape hs hne, hf.unescape_eq, fdAppend_eq_inFrame hroom]
  exact ⟨hunescape _ _ .frameEnd, hunescape _ _ .escape⟩

/-- Settles O17: such a follower stands for itself. -/
theorem escapePassesUnknownThrough : Obligations.EscapePassesUnknownThrough := by
  intro s b hs hescEnd hescEsc hend
  have happend : s.fdFeed b = s.fdAppend b := by
    rw [fdFeed_of_escape hs hend, unescape_of_ne hescEnd hescEsc]
  refine ⟨fun hroom => ?_, fun cap hcap hlen => ?_, exec_eq_fdFeed (b := escByte) (.inr rfl) s, fun hdata => ?_⟩
  · exact congrArg Host.Outcome.next (happend.trans (fdAppend_room s b hroom))
  · exact congrArg Host.Outcome.next (happend.trans (fdAppend_full s b cap hcap hlen.ge))
  · exact exec_eq_fdFeed (.inr (decodeWireByte_of_isDataByte hdata).symm) s

/-- Settles O18: the policy chooses between an append and the row of STARTED. -/
theorem endInEscapeFollowsPolicy : Obligations.EndInEscapeFollowsPolicy := by
  intro s i hs hi
  rw [exec_eq_fdFeed (b := endByte) hi]
  refine ⟨fun hp hroom => ?_, fun hp hbuf => ?_, fun hp hbuf => ?_⟩
  · rw [fdFeed_endByte_of_literal hs hp, fdAppend_room s endByte hroom]
  · rw [fdFeed_endByte_of_endFirst hs hp, fdEndInFrame_of_ne_nil hbuf]
    rfl
  · rw [fdFeed_endByte_of_endFirst hs hp, fdEndInFrame_of_nil hbuf]
    rfl

/-- Settles O20: it is what the command is. -/
theorem fdResetClears : Obligations.FdResetClears := fun _ => rfl

end Sys2Proof.Machine
end

section
/-! PROOFS. The line-control unit (42_line_control.md): the outcomes of OPEN, CLOSE, SETBAUD, FLUSH, WRITE, READ and
of the three commands that write a line. -/

namespace Sys2Proof.Machine

/-! ### The shared operations after a turn of the wire -/

section
variable (s : State)

/-- A failure at an `io` point: what the wire did stays, and the fault is all that the command adds (R193, R282). -/
theorem raise_wireTurn (f : BlockFault) :
    s.wireTurn.raise f = { s.wireTurn with trace := s.trace ++ [.fault f], result := .fault f } := by
  rw [← wireTurn_trace]; rfl

theorem writeLine_dtr_wireTurn (v : Level) :
    s.wireTurn.writeLine .dtr v = { s.wireTurn with lcDtr := some v, trace := s.trace ++ [.line .dtr v] } := by
  rw [writeLine_dtr, wireTurn_trace]

theorem writeLine_rts_wireTurn (v : Level) :
    s.wireTurn.writeLine .rts v = { s.wireTurn with lcRts := some v, trace := s.trace ++ [.line .rts v] } := by
  rw [writeLine_rts, wireTurn_trace]

/-- A line write uses up the draw of its own `io` point only. -/
theorem nextDraw_writeLine_wireTurn (l : Line) (v : Level) :
    (s.wireTurn.writeLine l v).nextDraw = s.drawAt 1 :=
  (drawAt_congr (writeLine_env s.wireTurn l v) 0).trans (wireTurn_nextDraw s)

end

/-! ### SETDTR, SETRTS, SETBOTH (R188 to R190) -/

/-- The command that writes one line. -/
def Line.instr : Line → Level → Instr
  | .dtr, v => .setDtr v
  | .rts, v => .setRts v

section
variable {s : State} (l : Line) (v : Level)

theorem exec_lineInstr_closed (hc : s.lcOpen = false) : exec (l.instr v) s = .next (s.raise (.notOpen l.cmd)) := by
  cases l <;> exact congrArg _ (requireOpen_closed _ _ _ hc)

theorem exec_lineInstr_open (ho : s.lcOpen = true) :
    exec (l.instr v) s = .next (s.lineCommand l v (.io l.cmd none) (fun t => t.ret .done)) := by
  cases l <;> exact congrArg _ (requireOpen_open _ _ _ ho)

theorem exec_lineInstr_fails (ho : s.lcOpen = true) (hio : s.nextDraw.ioFail = true) :
    exec (l.instr v) s = .next (s.wireTurn.raise (.io l.cmd none)) := by
  rw [exec_lineInstr_open l v ho, lineCommand_fails _ _ _ _ _ hio]

theorem exec_lineInstr_ok (ho : s.lcOpen = true) (hio : s.nextDraw.ioFail = false) :
    exec (l.instr v) s = .next ((s.wireTurn.writeLine l v).ret .done) := by
  rw [exec_lineInstr_open l v ho, lineCommand_ok _ _ _ _ _ hio]

variable (l' : Line) (v' : Level)

theorem twoLines_fails_first (hio : s.nextDraw.ioFail = true) :
    s.twoLines l v l' v' = s.wireTurn.raise (.io .setBoth none) :=
  lineCommand_fails _ _ _ _ _ hio

theorem twoLines_fails_second (hio : s.nextDraw.ioFail = false) (hio' : (s.drawAt 1).ioFail = true) :
    s.twoLines l v l' v' = (s.wireTurn.writeLine l v).wireTurn.raise (.io .setBoth none) := by
  rw [State.twoLines, lineCommand_ok _ _ _ _ _ hio, lineCommand_fails]
  rwa [nextDraw_writeLine_wireTurn]

theorem twoLines_ok (hio : s.nextDraw.ioFail = false) (hio' : (s.drawAt 1).ioFail = false) :
    s.twoLines l v l' v' = ((s.wireTurn.writeLine l v).wireTurn.writeLine l' v').ret .done := by
  rw [State.twoLines, lineCommand_ok _ _ _ _ _ hio, lineCommand_ok]
  rwa [nextDraw_writeLine_wireTurn]

end

section
variable {s : State} (d r : Level) (ho : s.lcOpen = true)
include ho

theorem exec_setBoth_dtrFirst (hord : s.cfg.bothOrder = .dtrFirst) :
    exec (.setBoth d r) s = .next (s.twoLines .dtr d .rts r) := by
  simp only [exec, execSetBoth, requireOpen_open _ _ _ ho, hord]

theorem exec_setBoth_rtsFirst (hord : s.cfg.bothOrder = .rtsFirst) :
    exec (.setBoth d r) s = .next (s.twoLines .rts r .dtr d) := by
  simp only [exec, execSetBoth, requireOpen_open _ _ _ ho, hord]

theorem exec_setBoth_fails_first (hio : s.nextDraw.ioFail = true) :
    exec (.setBoth d r) s = .next (s.wireTurn.raise (.io .setBoth none)) := by
  cases hord : s.cfg.bothOrder with
  | dtrFirst => rw [exec_setBoth_dtrFirst d r ho hord, twoLines_fails_first _ _ _ _ hio]
  | rtsFirst => rw [exec_setBoth_rtsFirst d r ho hord, twoLines_fails_first _ _ _ _ hio]

end

/-- Settles O41: each order is the two writes one after the other, and a failure at either `io` point ends it. -/
theorem setBothWritesTwice : Obligations.SetBothWritesTwice := by
  intro d r s ho
  refine ⟨fun hio hio' hord => ?_, fun hio hio' hord => ?_, fun hio hio' hord => ?_, fun hio hio' hord => ?_,
    fun hio => ?_⟩
  · rw [exec_setBoth_dtrFirst d r ho hord, twoLines_ok _ _ _ _ hio hio', writeLine_rts_wireTurn,
      writeLine_dtr_wireTurn, List.append_assoc]
    rfl
  · rw [exec_setBoth_rtsFirst d r ho hord, twoLines_ok _ _ _ _ hio hio', writeLine_dtr_wireTurn,
      writeLine_rts_wireTurn, List.append_assoc]
    rfl
  · rw [exec_setBoth_dtrFirst d r ho hord, twoLines_fails_second _ _ _ _ hio hio', raise_wireTurn,
      writeLine_dtr_wireTurn, List.append_assoc]
    rfl
  · rw [exec_setBoth_rtsFirst d r ho hord, twoLines_fails_second _ _ _ _ hio hio', raise_wireTurn,
      writeLine_rts_wireTurn, List.append_assoc]
    rfl
  · rw [exec_setBoth_fails_first d r ho hio, raise_wireTurn]

/-- Settles O39: the three outcomes of a line write, for DTR. -/
theorem setDtrWritesDtrOnly : Obligations.SetDtrWritesDtrOnly := by
  intro v s
  refine ⟨exec_lineInstr_closed .dtr v, fun ho hio => ?_, fun ho hio => ?_⟩
  · rw [← raise_wireTurn]
    exact exec_lineInstr_fails .dtr v ho hio
  · refine (exec_lineInstr_ok .dtr v ho hio).trans ?_
    rw [writeLine_dtr_wireTurn]
    rfl

/-- Settles O40: the three outcomes of a line write, for RTS. -/
theorem setRtsWritesRtsOnly : Obligations.SetRtsWritesRtsOnly := by
  intro v s
  refine ⟨exec_lineInstr_closed .rts v, fun ho hio => ?_, fun ho hio => ?_⟩
  · rw [← raise_wireTurn]
    exact exec_lineInstr_fails .rts v ho hio
  · refine (exec_lineInstr_ok .rts v ho hio).trans ?_
    rw [writeLine_rts_wireTurn]
    rfl

/-! ### The loop of WRITE (R186) -/

/-- The state after the loop of WRITE has accepted these bytes: a turn of the wire before each, and the byte queued. -/
def State.acceptAll : State → List Byte → State
  | s, [] => s
  | s, b :: bs => (s.wireTurn.pushTx b).acceptAll bs

section
variable (s : State)

theorem pushTx_wireTurn_drawAt (b : Byte) (k : Nat) : (s.wireTurn.pushTx b).drawAt k = s.drawAt (k + 1) :=
  (drawAt_congr (pushTx_env s.wireTurn b) k).trans (wireTurn_drawAt s k)

/-- Accepting bytes changes the two queues and the surroundings, and nothing else. -/
theorem acceptAll_frame (bs : List Byte) :
    s.acceptAll bs =
      { s with lcRx := (s.acceptAll bs).lcRx, lcTx := (s.acceptAll bs).lcTx, env := (s.acceptAll bs).env } := by
  induction bs generalizing s with
  | nil => rfl
  | cons b bs ih =>
    rw [State.acceptAll, ih]
    congr 1 <;> rw [State.pushTx, wireTurn_frame]

@[simp] theorem acceptAll_cfg (bs : List Byte) : (s.acceptAll bs).cfg = s.cfg := by rw [acceptAll_frame]

@[simp] theorem acceptAll_trace (bs : List Byte) : (s.acceptAll bs).trace = s.trace := by rw [acceptAll_frame]

@[simp] theorem acceptAll_input (bs : List Byte) : (s.acceptAll bs).env.input = s.env.input := by
  induction bs generalizing s with
  | nil => rfl
  | cons b bs ih => rw [State.acceptAll, ih, pushTx_env, wireTurn_input]

/-- What the wire took and what is queued, together, grow by the bytes accepted, in order (R69). -/
theorem acceptAll_outgoing (bs : List Byte) : (s.acceptAll bs).outgoing = s.outgoing ++ bs := by
  induction bs generalizing s with
  | nil => exact (List.append_nil _).symm
  | cons b bs ih =>
    have hpush : (s.wireTurn.pushTx b).outgoing = s.outgoing ++ [b] := by
      rw [State.outgoing, pushTx_env, pushTx_lcTx, ← List.append_assoc, wireTurn_sent, State.outgoing]
    rw [State.acceptAll, ih, hpush, List.append_assoc, List.singleton_append]

/-- Each byte accepted uses up one draw. -/
theorem acceptAll_drawAt (bs : List Byte) (k : Nat) : (s.acceptAll bs).drawAt k = s.drawAt (k + bs.length) := by
  induction bs generalizing s with
  | nil => rfl
  | cons b bs ih => rw [State.acceptAll, ih, pushTx_wireTurn_drawAt, List.length_cons, Nat.add_assoc]

theorem acceptAll_txLength (bs : List Byte) : (s.acceptAll bs).lcTx.length ≤ s.lcTx.length + bs.length := by
  induction bs generalizing s with
  | nil => exact Nat.le_refl _
  | cons b bs ih =>
    have hrest := ih (s.wireTurn.pushTx b)
    have hturn := wireTurn_txLength s
    rw [pushTx_lcTx, List.length_append, List.length_singleton] at hrest
    rw [State.acceptAll, List.length_cons]
    omega

end

section
variable {s : State} (done : List Byte) (b : Byte) (rest : List Byte)

/-- A full queue: the loop stops, with this byte still to come (log 10). -/
theorem writeLoop_full (hfull : hasRoom s.cfg.txFifoCap s.wireTurn.lcTx.length = false) :
    s.writeLoop done (b :: rest) =
      { s.wireTurn with lcWriting := some { accepted := done, remaining := b :: rest } } := by
  simp only [State.writeLoop, wireTurn_cfg, hfull, Bool.false_eq_true, if_false]

theorem writeLoop_fails (hroom : hasRoom s.cfg.txFifoCap s.wireTurn.lcTx.length = true)
    (hio : s.nextDraw.ioFail = true) :
    s.writeLoop done (b :: rest) = { s.wireTurn with
      lcWriting := none, trace := s.trace ++ [.tx done, .fault (.io .write none)],
      result := .fault (.io .write none) } := by
  simp only [State.writeLoop, wireTurn_cfg, hroom, hio, if_true]
  rw [State.raise, State.emit, State.emit, wireTurn_trace, List.append_assoc]
  rfl

theorem writeLoop_accepts (hroom : hasRoom s.cfg.txFifoCap s.wireTurn.lcTx.length = true)
    (hio : s.nextDraw.ioFail = false) :
    s.writeLoop done (b :: rest) = (s.wireTurn.pushTx b).writeLoop (done ++ [b]) rest := by
  simp only [State.writeLoop, wireTurn_cfg, hroom, hio, if_true, Bool.false_eq_true, if_false]

end

/-- One byte more within the capacity: there is room for it after a turn of the wire, which only drains the queue. -/
theorem hasRoom_wireTurn {s : State} {n : Nat} (hn : s.lcTx.length < n) (hfits : within s.cfg.txFifoCap n = true) :
    hasRoom s.cfg.txFifoCap s.wireTurn.lcTx.length = true :=
  hasRoom_of_within (Nat.lt_of_le_of_lt (wireTurn_txLength s) hn) hfits

/-- With room for the first bytes and no failure before any of them, the loop accepts them and goes on. -/
theorem writeLoop_append {s : State} {sent : List Byte}
    (hfits : within s.cfg.txFifoCap (s.lcTx.length + sent.length) = true)
    (hio : ∀ k, k < sent.length → (s.drawAt k).ioFail = false) (done rest : List Byte) :
    s.writeLoop done (sent ++ rest) = (s.acceptAll sent).writeLoop (done ++ sent) rest := by
  induction sent generalizing s done with
  | nil => rw [List.append_nil]; rfl
  | cons b bs ih =>
    have hroom : hasRoom s.cfg.txFifoCap s.wireTurn.lcTx.length = true :=
      hasRoom_wireTurn (Nat.lt_add_of_pos_right (Nat.succ_pos _)) hfits
    have hfits' : within (s.wireTurn.pushTx b).cfg.txFifoCap ((s.wireTurn.pushTx b).lcTx.length + bs.length) = true := by
      have hturn := wireTurn_txLength s
      rw [pushTx_cfg, wireTurn_cfg]
      refine within_of_le ?_ hfits
      rw [pushTx_lcTx, List.length_append, List.length_singleton, List.length_cons]
      omega
    have hio' : ∀ k, k < bs.length → ((s.wireTurn.pushTx b).drawAt k).ioFail = false := fun k hk => by
      rw [pushTx_wireTurn_drawAt]
      exact hio (k + 1) (Nat.succ_lt_succ hk)
    rw [List.cons_append, writeLoop_accepts done b _ hroom (hio 0 (Nat.succ_pos _)), ih hfits' hio', State.acceptAll,
      List.append_assoc, List.singleton_append]

theorem exec_write_open {s : State} (ho : s.lcOpen = true) (bytes : List Byte) :
    exec (.write bytes) s = .next (s.writeLoop [] bytes) :=
  congrArg _ (requireOpen_open _ _ _ ho)

/-- Settles O34: the loop accepts every byte and ends. -/
theorem writeCompletes : Obligations.WriteCompletes := by
  intro bytes s ho hfits hio
  have hloop : s.writeLoop [] bytes = (s.acceptAll bytes).writeLoop bytes [] := by
    simpa only [List.append_nil, List.nil_append] using writeLoop_append hfits hio [] []
  refine ⟨_, exec_write_open ho bytes, ?_⟩
  rw [hloop]
  refine ⟨?_, acceptAll_outgoing s bytes, acceptAll_input s bytes⟩
  rw [acceptAll_frame]
  rfl

/-- Settles O35: the loop accepts the bytes before the failure, and the failure ends it. -/
theorem writeFailsPartWay : Obligations.WriteFailsPartWay := by
  intro sent b rest s ho hfits hio hfail
  have hroom : hasRoom (s.acceptAll sent).cfg.txFifoCap (s.acceptAll sent).wireTurn.lcTx.length = true := by
    refine hasRoom_wireTurn (Nat.lt_succ_of_le (acceptAll_txLength s sent)) ?_
    rwa [acceptAll_cfg]
  have hstop : (s.acceptAll sent).nextDraw.ioFail = true := by
    rwa [State.nextDraw, acceptAll_drawAt, Nat.zero_add]
  refine ⟨_, exec_write_open ho _, ?_⟩
  rw [writeLoop_append (within_of_le (Nat.le_succ _) hfits) hio, writeLoop_fails _ b rest hroom hstop, List.nil_append]
  refine ⟨?_, (wireTurn_sent _).trans (acceptAll_outgoing s sent)⟩
  rw [acceptAll_trace, wireTurn_frame, acceptAll_frame]

/-! ### A WRITE that waits (R318) -/

/-- Without a turn of the wire or a block reset in the way, a step goes on with the WRITE that waits, and the host's
turn stays (00_scope.md R10). -/
theorem step_of_writing {s : State} {w : Writing} (hw : s.lcWriting = some w)
    (hin : s.env.input = [] ∨ ∃ f bs more, s.env.input = .host f bs :: more) :
    step s = .next (s.resumeWrite w) := by
  obtain hin | ⟨f, bs, more, hin⟩ := hin
  · simp only [step, takeTurn, hin, idleTurn, hw]
  · simp only [step, takeTurn, hin, hostTurn, hw]

/-- Settles O36: each try meets a full queue and leaves the WRITE as it was, or it goes on with the loop. -/
theorem writeStallsWhenFull : Obligations.WriteStallsWhenFull := by
  intro b rest s
  refine ⟨fun hfull ho => ?_, fun done hw hin => ⟨fun hfull => ?_, fun hroom hio => ?_⟩⟩
  · rw [exec_write_open ho, writeLoop_full [] b rest hfull]
  · have hkept : { s.wireTurn with lcWriting := some { accepted := done, remaining := b :: rest } } = s.wireTurn := by
      rw [← hw, ← wireTurn_lcWriting]
    rw [step_of_writing hw hin, State.resumeWrite, writeLoop_full done b rest hfull, hkept]
  · rw [step_of_writing hw hin, State.resumeWrite, writeLoop_accepts done b rest hroom hio]
    rfl

/-! ### OPEN and CLOSE (R180 to R183) -/

/-- Settles O29: each outcome is one branch of the command. -/
theorem openOutcomes : Obligations.OpenOutcomes := by
  intro path s
  refine ⟨fun hc hav => ?_, fun hc hav => ?_, fun ho => congrArg Host.Outcome.next (if_pos ho)⟩
  · simp only [exec, execOpenDev, hc, hav, Bool.false_eq_true, if_false, if_true]
    rw [← wireTurn_trace, State.openWith, wireTurn_cfg]
    rfl
  · simp only [exec, execOpenDev, hc, hav, Bool.false_eq_true, if_false]
    rw [← wireTurn_trace]
    rfl

/-- Settles O30: in each outcome the one event is no line write, and the wire's turn leaves the line registers. -/
theorem openNeverTouchesLines : Obligations.OpenNeverTouchesLines := by
  intro path s
  obtain ⟨hfound, hmissing, halready⟩ := openOutcomes path s
  have hone : ∀ e : Event, e.isLineWrite = false → ∀ e' ∈ [e], e'.isLineWrite = false :=
    fun _ he _ hmem => List.mem_singleton.mp hmem ▸ he
  cases ho : s.lcOpen with
  | true => exact ⟨_, _, halready ho, rfl, rfl, rfl, hone _ rfl⟩
  | false =>
    cases hav : s.nextDraw.avail with
    | true => exact ⟨_, _, hfound ho hav, wireTurn_lcDtr s, wireTurn_lcRts s, rfl, hone _ rfl⟩
    | false => exact ⟨_, _, hmissing ho hav, wireTurn_lcDtr s, wireTurn_lcRts s, rfl, hone _ rfl⟩

/-- Settles O31: each clause is one branch of the command. -/
theorem closeCompletes : Obligations.CloseCompletes := fun s =>
  ⟨fun ho => congrArg Host.Outcome.next (if_pos ho), fun hc => congrArg Host.Outcome.next (if_neg (by simp [hc]))⟩

/-! ### SETBAUD and FLUSH (R184, R185) -/

/-- Settles O32: the order of the tests is connection, rate, failure; the bounds of the default set leave out 0 only. -/
theorem setBaudCompletes : Obligations.SetBaudCompletes := by
  refine ⟨fun rate s ho => ⟨fun hset hio => ?_, fun hset hio => ?_, fun hset => ?_⟩, fun rate => ?_⟩
  · simp only [exec, execSetBaud, requireOpen_open _ _ _ ho, hset, hio, if_true, Bool.false_eq_true, if_false]
    rw [State.flushQueues, State.emit, State.emit, wireTurn_trace, List.append_assoc]
    rfl
  · simp only [exec, execSetBaud, requireOpen_open _ _ _ ho, hset, hio, if_true, raise_wireTurn]
  · simp only [exec, execSetBaud, requireOpen_open _ _ _ ho, hset, Bool.false_eq_true, if_false]
    rfl
  · have hbounds : baudAccepted State.reset.cfg.baudSet rate = true ↔ 1 ≤ rate ∧ rate ≤ 0xFFFFFFFF := by
      simp [baudAccepted, State.reset, defaultParams]
    rw [hbounds]
    bv_omega

/-- Settles O33: the flush after the wire's turn, or the failure in its place. -/
theorem flushCompletes : Obligations.FlushCompletes := by
  intro s ho
  refine ⟨fun hio => ?_, fun hio => ?_⟩
  · simp only [exec, execFlush, requireOpen_open _ _ _ ho, hio, Bool.false_eq_true, if_false]
    rw [← wireTurn_trace]
    rfl
  · simp only [exec, execFlush, requireOpen_open _ _ _ ho, hio, if_true, raise_wireTurn]

/-! ### READ (R187) -/

theorem readDuration_le (rx : List Byte) (timeout : Ms) (extra : Nat) : readDuration rx timeout extra ≤ timeout := by
  unfold readDuration
  split
  · exact Nat.le_refl _
  · exact Nat.min_le_right _ _

theorem readDuration_of_nil {rx : List Byte} (h : rx = []) (timeout : Ms) (extra : Nat) :
    readDuration rx timeout extra = timeout := if_pos h

theorem readWait_eq (s : State) (timeout : Ms) :
    s.readWait timeout =
      { s.wireTurn with now := s.now + readDuration s.wireTurn.lcRx timeout s.nextDraw.extra } := by
  rw [State.readWait, wireTurn_now]

/-- Settles O38: the time it takes is the duration of the wait, whether bytes are handed out or a failure strikes. -/
theorem readCompletes : Obligations.ReadCompletes := by
  intro timeout s ho
  refine ⟨readDuration s.wireTurn.lcRx timeout s.nextDraw.extra, readDuration_le _ _ _,
    fun hnil => readDuration_of_nil hnil _ _, fun hio => ?_, fun hio => ?_⟩
  · simp only [exec, execRead, requireOpen_open _ _ _ ho, hio, Bool.false_eq_true, if_false]
    rw [readWait_eq, ← wireTurn_trace]
    rfl
  · simp only [exec, execRead, requireOpen_open _ _ _ ho, hio, if_true]
    rw [readWait_eq, ← wireTurn_trace]
    rfl

end Sys2Proof.Machine
end

section
/-! PROOFS. The timer, SELECT and the reset sequencer (43_reset_sequencer.md). The key fact: a turn of the wire does
not see the place of the sequencer, so that each entry of a sequence has the effect of its command, and a run of
entries is the commands issued one by one. -/

namespace Sys2Proof.Machine

/-! ### WAIT and SELECT (R220, R222) -/

section
variable {s : State} {n : Ms}

theorem exec_wait_of_fits (h : fitsTimer s.cfg.timerW n = true) :
    exec (.wait n) s = .next ((s.waitFor n).ret .done) := congrArg Host.Outcome.next (if_pos h)

theorem exec_wait_of_not_fits (h : ¬ fitsTimer s.cfg.timerW n = true) :
    exec (.wait n) s = .next (s.raise (.badOperand n)) := congrArg Host.Outcome.next (if_neg h)

theorem overrun_le_of_slack {slack : Option Nat} {k : Nat} (h : slack = some k) (extra : Nat) :
    overrun slack extra ≤ k := h ▸ overrun_le k extra

end

/-- Settles O44: the time that goes by is the operand and the overrun of the draw. -/
theorem waitLastsAtLeast : Obligations.WaitLastsAtLeast := by
  intro n s
  refine ⟨fun hlt => ⟨overrun s.cfg.waitSlack s.nextDraw.extra, fun slack h => overrun_le_of_slack h _, ?_⟩,
    fun hle => ?_⟩
  · rw [exec_wait_of_fits (decide_eq_true hlt), waitFor_eq]
    rfl
  · rw [exec_wait_of_not_fits (by simpa [fitsTimer] using hle)]
    rfl

theorem exec_select_of_none {s : State} (h : s.rsStrategy = none) (vid pid : Option DevId) :
    exec (.select vid pid) s = .next (({ s with rsStrategy := some (strategyOf vid pid) }).ret .done) := by
  simp only [exec, execSelect, h]

theorem exec_select_of_some {s : State} {held : Strategy} (h : s.rsStrategy = some held) (vid pid : Option DevId) :
    exec (.select vid pid) s = .next (s.raise (.strategyLocked held)) := by
  simp only [exec, execSelect, h]

/-- Settles O45: without a strategy the identifiers choose it, with one the command is refused. -/
theorem selectLatchesOnce : Obligations.SelectLatchesOnce := fun vid pid _ =>
  ⟨fun hnone => exec_select_of_none hnone vid pid, fun _ hheld => exec_select_of_some hheld vid pid⟩

/-! ### The place of the sequencer -/

/-- The state with the sequencer at a place of its ROM, and with a result: all that a run of entries changes beyond
the commands of its entries. -/
def State.placed (s : State) (q : SeqName) (pc : Nat) (r : Result) : State :=
  { s with rsSeq := some q, rsPc := pc, result := r }

section
variable (s : State) (q : SeqName) (pc : Nat) (r : Result)

theorem wireStep_placed (w : WireStep) : (s.placed q pc r).wireStep w = (s.wireStep w).placed q pc r := by
  cases w with
  | txTake k =>
    simp only [State.wireStep, apply_ite (State.placed · q pc r)]
    rfl
  | rxDeliver bs =>
    simp only [State.wireStep, apply_ite (State.placed · q pc r)]
    rfl
  | observe d r => rfl

theorem wireSteps_placed (ms : List WireStep) : (s.placed q pc r).wireSteps ms = (s.wireSteps ms).placed q pc r := by
  induction ms generalizing s with
  | nil => rfl
  | cons m ms ih => rw [State.wireSteps, wireStep_placed, ih, State.wireSteps]

/-- The wire does not see the place of the sequencer. -/
theorem wireTurn_placed : (s.placed q pc r).wireTurn = s.wireTurn.placed q pc r :=
  wireSteps_placed s.drawn q pc r s.nextDraw.moves

theorem waitFor_placed (n : Ms) : (s.placed q pc r).waitFor n = (s.waitFor n).placed q pc r := by
  rw [waitFor_eq, waitFor_eq, wireTurn_placed]
  rfl

theorem lineCommand_placed_ok (l : Line) (v : Level) (f : BlockFault) (after : State → State)
    (hio : s.nextDraw.ioFail = false) :
    (s.placed q pc r).lineCommand l v f after = after ((s.wireTurn.writeLine l v).placed q pc r) := by
  rw [lineCommand_ok (s.placed q pc r) l v f after hio, wireTurn_placed]
  cases l <;> rfl

theorem lineCommand_placed_fails (l : Line) (v : Level) (f : BlockFault) (after : State → State)
    (hio : s.nextDraw.ioFail = true) :
    (s.placed q pc r).lineCommand l v f after = (s.wireTurn.placed q pc r).raise f := by
  rw [lineCommand_fails (s.placed q pc r) l v f after hio, wireTurn_placed]

end

/-! ### Entries that succeed -/

/-- The state after the command of an entry that succeeds. -/
def State.playEntry (s : State) : RomEntry → State
  | .setDtr v => (s.wireTurn.writeLine .dtr v).ret .done
  | .setRts v => (s.wireTurn.writeLine .rts v).ret .done
  | .wait n => (s.waitFor n).ret .done

/-- The state after the commands of these entries, each of which succeeds. -/
def State.play : State → List RomEntry → State
  | s, [] => s
  | s, e :: es => (s.playEntry e).play es

/-- The commands of these entries succeed: the block is open, no line write fails, and the timer holds each delay. -/
structure State.Plays (s : State) (es : List RomEntry) : Prop where
  isOpen : s.lcOpen = true
  writes : s.lineWritesSucceed es
  waits  : ∀ n, .wait n ∈ es → fitsTimer s.cfg.timerW n = true

section
variable (s : State)

@[simp] theorem playEntry_lcOpen (e : RomEntry) : (s.playEntry e).lcOpen = s.lcOpen := by
  cases e <;> simp [State.playEntry, waitFor_eq]

@[simp] theorem playEntry_cfg (e : RomEntry) : (s.playEntry e).cfg = s.cfg := by
  cases e <;> simp [State.playEntry, waitFor_eq]

@[simp] theorem playEntry_trace (e : RomEntry) : (s.playEntry e).trace = s.trace ++ [entryEvent e] := by
  cases e <;> simp [State.playEntry, entryEvent, waitFor_eq]

@[simp] theorem playEntry_result (e : RomEntry) : (s.playEntry e).result = .done := by cases e <;> rfl

theorem playEntry_env (e : RomEntry) : (s.playEntry e).env = s.wireTurn.env := by
  cases e with
  | setDtr v => rfl
  | setRts v => rfl
  | wait n => rw [State.playEntry, waitFor_eq]; rfl

/-- An entry uses up one draw. -/
theorem playEntry_drawAt (e : RomEntry) (k : Nat) : (s.playEntry e).drawAt k = s.drawAt (k + 1) :=
  (drawAt_congr (playEntry_env s e) k).trans (wireTurn_drawAt s k)

/-- An entry changes the lines, the queues, the timer, the time, the surroundings, the trace and the result. -/
theorem playEntry_frame (e : RomEntry) :
    s.playEntry e = { s with
      lcDtr := (s.playEntry e).lcDtr, lcRts := (s.playEntry e).lcRts, lcRx := (s.playEntry e).lcRx,
      lcTx := (s.playEntry e).lcTx, tmRem := (s.playEntry e).tmRem, now := (s.playEntry e).now,
      env := (s.playEntry e).env, trace := (s.playEntry e).trace, result := (s.playEntry e).result } := by
  cases e with
  | setDtr v => rw [State.playEntry, wireTurn_frame]; rfl
  | setRts v => rw [State.playEntry, wireTurn_frame]; rfl
  | wait n => rw [State.playEntry, waitFor_eq, wireTurn_frame]; rfl

theorem play_frame (es : List RomEntry) :
    s.play es = { s with
      lcDtr := (s.play es).lcDtr, lcRts := (s.play es).lcRts, lcRx := (s.play es).lcRx, lcTx := (s.play es).lcTx,
      tmRem := (s.play es).tmRem, now := (s.play es).now, env := (s.play es).env, trace := (s.play es).trace,
      result := (s.play es).result } := by
  induction es generalizing s with
  | nil => rfl
  | cons e es ih => rw [State.play, ih, playEntry_frame]

theorem play_trace (es : List RomEntry) : (s.play es).trace = s.trace ++ es.map entryEvent := by
  induction es generalizing s with
  | nil => exact (List.append_nil _).symm
  | cons e es ih => rw [State.play, ih, playEntry_trace, List.append_assoc, List.singleton_append, List.map_cons]

theorem play_drawAt (es : List RomEntry) (k : Nat) : (s.play es).drawAt k = s.drawAt (k + es.length) := by
  induction es generalizing s with
  | nil => rfl
  | cons e es ih => rw [State.play, ih, playEntry_drawAt, List.length_cons, Nat.add_assoc]

theorem play_result_of_ne_nil {es : List RomEntry} (h : es ≠ []) : (s.play es).result = .done := by
  induction es generalizing s with
  | nil => exact absurd rfl h
  | cons e es ih =>
    cases es with
    | nil => exact playEntry_result s e
    | cons e' es => exact ih (s.playEntry e) nofun

theorem play_rom_result (q : SeqName) : (s.play (rom q)).result = .done :=
  play_result_of_ne_nil s (by cases q <;> nofun)

end

/-! ### The entries as commands, and as a run (R228) -/

section
variable {s : State} {e : RomEntry} {es : List RomEntry}

theorem State.Plays.nextDraw (h : s.Plays (e :: es)) (he : ∀ n, e ≠ .wait n) : s.nextDraw.ioFail = false :=
  h.writes 0 e rfl he

theorem State.Plays.tail (h : s.Plays (e :: es)) : (s.playEntry e).Plays es where
  isOpen := (playEntry_lcOpen s e).trans h.isOpen
  writes k e' hk he' := by
    rw [playEntry_drawAt]
    exact h.writes (k + 1) e' hk he'
  waits n hn := by
    rw [playEntry_cfg]
    exact h.waits n (List.mem_cons_of_mem e hn)

theorem exec_toInstr (h : s.Plays (e :: es)) : exec e.toInstr s = .next (s.playEntry e) := by
  cases e with
  | setDtr v => exact exec_lineInstr_ok .dtr v h.isOpen (h.nextDraw nofun)
  | setRts v => exact exec_lineInstr_ok .rts v h.isOpen (h.nextDraw nofun)
  | wait n => exact exec_wait_of_fits (h.waits n List.mem_cons_self)

theorem issue_toInstr (h : s.Plays es) : issue (es.map RomEntry.toInstr) s = .next (s.play es) := by
  induction es generalizing s with
  | nil => rfl
  | cons e es ih =>
    simp only [List.map_cons, issue, exec_toInstr h]
    exact ih h.tail

/-- In a sequence an entry has the effect of its command, but for the place and the result. -/
theorem performEntry_placed (h : s.Plays (e :: es)) (q : SeqName) (pc : Nat) (r : Result) (after : State → State) :
    (s.placed q pc r).performEntry q e after = after ((s.playEntry e).placed q pc r) := by
  cases e with
  | setDtr v => exact lineCommand_placed_ok s q pc r .dtr v _ after (h.nextDraw nofun)
  | setRts v => exact lineCommand_placed_ok s q pc r .rts v _ after (h.nextDraw nofun)
  | wait n =>
    have hfits : fitsTimer (s.placed q pc r).cfg.timerW n = true := h.waits n List.mem_cons_self
    simp only [State.performEntry, hfits, if_true, waitFor_placed]
    rfl

/-- A run goes through entries that succeed as their commands do, and the counter moves on by as many places. -/
theorem runEntries_append (h : s.Plays es) (q : SeqName) (pc : Nat) (r : Result) (rest : List RomEntry) :
    (s.placed q pc r).runEntries q (es ++ rest) = ((s.play es).placed q (pc + es.length) r).runEntries q rest := by
  induction es generalizing s pc with
  | nil => rfl
  | cons e es ih =>
    rw [List.cons_append, State.runEntries, performEntry_placed h, State.play, List.length_cons,
      Nat.add_comm es.length 1, ← Nat.add_assoc]
    exact ih h.tail (pc + 1)

end

/-! ### The two commands that run a sequence (R226, R227) -/

/-- The command `i` runs the sequence `q`: RUN_HARD its own, RUN_ENTER the one of the strategy held. -/
def State.Starts (s : State) (i : Instr) (q : SeqName) : Prop :=
  (i = .runHard ∧ q = .seqHard) ∨ ∃ strat, s.rsStrategy = some strat ∧ i = .runEnter ∧ q = entrySeq strat

section
variable {s : State} {i : Instr} {q : SeqName}

theorem exec_of_starts (ho : s.lcOpen = true) (hi : s.Starts i q) : exec i s = .next (s.runSeq q) := by
  obtain ⟨rfl, rfl⟩ | ⟨strat, hstrat, rfl, rfl⟩ := hi
  · exact congrArg _ (requireOpen_open _ _ _ ho)
  · simp only [exec, execRunEnter, requireOpen_open _ _ _ ho, hstrat]

theorem plays_of_sublist_rom {es : List RomEntry} (hsub : es.Sublist (rom q)) (ho : s.lcOpen = true)
    (hw : 7 ≤ s.cfg.timerW) (hio : s.lineWritesSucceed es) : s.Plays es where
  isOpen := ho
  writes := hio
  waits _ hn := fitsTimer_of_mem_rom hw (hsub.subset hn)

/-- A run goes on behind its first entries, if they succeed, from the state that their commands leave. -/
theorem runSeq_of_plays {es rest : List RomEntry} (hrom : rom q = es ++ rest) (h : s.Plays es) :
    s.runSeq q = ((s.play es).placed q es.length s.result).runEntries q rest := by
  have hrun := runEntries_append h q 0 s.result rest
  rwa [← hrom, Nat.zero_add] at hrun

/-- Without a failure the command leaves the state that the commands of its entries leave, with the sequencer
idle. -/
theorem exec_of_starts_of_plays (hi : s.Starts i q) (h : s.Plays (rom q)) :
    exec i s = .next { s.play (rom q) with rsSeq := none, rsPc := 0 } := by
  rw [exec_of_starts h.isOpen hi, runSeq_of_plays (List.append_nil _).symm h]
  exact congrArg (fun r => Host.Outcome.next { s.play (rom q) with rsSeq := none, rsPc := 0, result := r })
    (play_rom_result s q).symm

end

/-! ### The statements about the commands of a sequence (R228, R229) -/

/-- Settles O52: the commands of the entries and the run of the sequence lead to the same state. -/
theorem sequenceEqualsItsCommands : Obligations.SequenceEqualsItsCommands := by
  intro s t i q ho hw hi hio hissue
  have hplays : s.Plays (rom q) := plays_of_sublist_rom (List.Sublist.refl _) ho hw hio
  have ht : s.play (rom q) = t := Host.Outcome.next.inj ((issue_toInstr hplays).symm.trans hissue)
  rw [exec_of_starts_of_plays hi hplays, ht]

/-- The entry that writes a line. -/
def Line.entry : Line → Level → RomEntry
  | .dtr, v => .setDtr v
  | .rts, v => .setRts v

theorem exists_line_of_ne_wait {e : RomEntry} (he : ∀ n, e ≠ .wait n) : ∃ (l : Line) (v : Level), e = l.entry v := by
  cases e with
  | setDtr v => exact ⟨.dtr, v, rfl⟩
  | setRts v => exact ⟨.rts, v, rfl⟩
  | wait n => exact absurd rfl (he n)

theorem performEntry_lineEntry (s : State) (q : SeqName) (l : Line) (v : Level) (after : State → State) :
    s.performEntry q (l.entry v) after = s.lineCommand l v (.io l.cmd (some (q, s.rsPc))) after := by
  cases l <;> rfl

/-- A failing line write stops the run at its place. -/
theorem runEntries_placed_fails {s : State} (hfail : s.nextDraw.ioFail = true) (q : SeqName) (pc : Nat) (r : Result)
    (l : Line) (v : Level) (rest : List RomEntry) :
    (s.placed q pc r).runEntries q (l.entry v :: rest) =
      (s.wireTurn.placed q pc r).raise (.io l.cmd (some (q, pc))) := by
  rw [State.runEntries, performEntry_lineEntry]
  exact lineCommand_placed_fails s q pc r l v _ _ hfail

/-- Settles O51: the run splits at the failing entry; before it every entry succeeds, and at it the run stops. -/
theorem sequenceStopsAtFailure : Obligations.SequenceStopsAtFailure := by
  intro s i q k e ho hw hi hk he hio hfail
  obtain ⟨hlt, hget⟩ := List.getElem?_eq_some_iff.mp hk
  obtain ⟨l, v, rfl⟩ := exists_line_of_ne_wait he
  have hlen : ((rom q).take k).length = k := List.length_take_of_le hlt.le
  have hsplit : rom q = (rom q).take k ++ l.entry v :: (rom q).drop (k + 1) := by
    rw [← hget, ← List.drop_eq_getElem_cons hlt, List.take_append_drop]
  have hplays : s.Plays ((rom q).take k) := plays_of_sublist_rom (List.take_sublist k _) ho hw hio
  have hstop : (s.play ((rom q).take k)).nextDraw.ioFail = true := by
    rwa [State.nextDraw, play_drawAt, hlen, Nat.zero_add]
  refine ⟨s.play ((rom q).take k), .io l.cmd (some (q, k)), by cases l <;> rfl, issue_toInstr hplays,
    play_trace s _, ?_⟩
  rw [exec_of_starts ho hi, runSeq_of_plays hsplit hplays, hlen, runEntries_placed_fails hstop,
    ← wireTurn_trace (s.play ((rom q).take k))]
  rfl

/-! ### What a sequence leaves (R223 to R225, R236) -/

/-- The delay of an entry. -/
def entryDelay : RomEntry → Nat
  | .setDtr _ => 0
  | .setRts _ => 0
  | .wait n => n

/-- How many overruns an entry has: a WAIT has one. -/
def entryOverruns : RomEntry → Nat
  | .setDtr _ => 0
  | .setRts _ => 0
  | .wait _ => 1

/-- The least time that entries take (43_reset_sequencer.md R220). -/
def totalDelay (es : List RomEntry) : Nat := (es.map entryDelay).sum

/-- How many overruns are in the time that entries take. -/
def totalOverruns (es : List RomEntry) : Nat := (es.map entryOverruns).sum

section
variable (s : State) (v : Level) (n : Ms)

@[simp] theorem playEntry_setDtr_lcDtr : (s.playEntry (.setDtr v)).lcDtr = some v := rfl
@[simp] theorem playEntry_setRts_lcDtr : (s.playEntry (.setRts v)).lcDtr = s.lcDtr := wireTurn_lcDtr s
@[simp] theorem playEntry_wait_lcDtr : (s.playEntry (.wait n)).lcDtr = s.lcDtr := by simp [State.playEntry, waitFor_eq]

@[simp] theorem playEntry_setDtr_lcRts : (s.playEntry (.setDtr v)).lcRts = s.lcRts := wireTurn_lcRts s
@[simp] theorem playEntry_setRts_lcRts : (s.playEntry (.setRts v)).lcRts = some v := rfl
@[simp] theorem playEntry_wait_lcRts : (s.playEntry (.wait n)).lcRts = s.lcRts := by simp [State.playEntry, waitFor_eq]

@[simp] theorem playEntry_wait_tmRem : (s.playEntry (.wait n)).tmRem = 0 := by simp [State.playEntry, waitFor_eq]

/-- Every sequence of the ROM ends with a WAIT and with both lines low (R236). -/
theorem play_rom_lines (q : SeqName) :
    (s.play (rom q)).lcDtr = some false ∧ (s.play (rom q)).lcRts = some false ∧ (s.play (rom q)).tmRem = 0 := by
  cases q <;> simp [rom, State.play]

/-- The time of an entry is its delay, and for a WAIT the overrun. -/
theorem playEntry_now (e : RomEntry) :
    (s.playEntry e).now = s.now + entryDelay e + entryOverruns e * overrun s.cfg.waitSlack s.nextDraw.extra := by
  cases e <;> simp [State.playEntry, entryDelay, entryOverruns, waitFor_eq]

theorem play_now_ge (es : List RomEntry) : s.now + totalDelay es ≤ (s.play es).now := by
  induction es generalizing s with
  | nil => exact Nat.le_refl _
  | cons e es ih =>
    have hrest := ih (s.playEntry e)
    rw [playEntry_now] at hrest
    simp only [State.play, totalDelay, List.map_cons, List.sum_cons] at hrest ⊢
    omega

theorem play_now_le {slack : Nat} (hslack : s.cfg.waitSlack = some slack) (es : List RomEntry) :
    (s.play es).now ≤ s.now + totalDelay es + totalOverruns es * slack := by
  induction es generalizing s with
  | nil => exact Nat.le_add_right _ _
  | cons e es ih =>
    have hrest := ih (s.playEntry e) (by rw [playEntry_cfg, hslack])
    have hover := Nat.mul_le_mul_left (entryOverruns e) (overrun_le_of_slack hslack s.nextDraw.extra)
    rw [playEntry_now] at hrest
    simp only [State.play, totalDelay, totalOverruns, List.map_cons, List.sum_cons, Nat.add_mul] at hrest ⊢
    omega

end

/-- A sequence without a failure performs its entries: their events, the lines low and the timer idle, and the time
between the bounds of its WAITs. -/
theorem exec_performs_rom {s : State} {i : Instr} {q : SeqName} (hi : s.Starts i q) (ho : s.lcOpen = true)
    (hw : 7 ≤ s.cfg.timerW) (hio : s.lineWritesSucceed (rom q)) :
    ∃ t, exec i s = .next t ∧
      t = { s with
        lcDtr := some false, lcRts := some false, lcRx := t.lcRx, lcTx := t.lcTx, rsSeq := none, rsPc := 0,
        tmRem := 0, now := t.now, result := .done, env := t.env,
        trace := s.trace ++ (rom q).map entryEvent } ∧
      s.now + totalDelay (rom q) ≤ t.now ∧
      ∀ slack, s.cfg.waitSlack = some slack →
        t.now ≤ s.now + totalDelay (rom q) + totalOverruns (rom q) * slack := by
  have hplays : s.Plays (rom q) := plays_of_sublist_rom (List.Sublist.refl _) ho hw hio
  refine ⟨_, exec_of_starts_of_plays hi hplays, ?_, play_now_ge s _, fun _ hslack => play_now_le s hslack _⟩
  obtain ⟨hdtr, hrts, htimer⟩ := play_rom_lines s q
  rw [play_frame, hdtr, hrts, htimer, play_rom_result, play_trace]

/-- Settles O47: RUN_ENTER starts SEQ_USB, whose WAITs are three of 100 ms and one of 50 ms. -/
theorem runEnterUsbPlaysSeqUsb : Obligations.RunEnterUsbPlaysSeqUsb := fun _ ho hstrat hw hio =>
  exec_performs_rom (.inr ⟨.usbNative, hstrat, rfl, rfl⟩) ho hw hio

/-- Settles O48: RUN_ENTER starts SEQ_BRIDGE, whose WAITs are one of 100 ms and two of 50 ms. -/
theorem runEnterBridgePlaysSeqBridge : Obligations.RunEnterBridgePlaysSeqBridge := fun _ ho hstrat hw hio =>
  exec_performs_rom (.inr ⟨.bridge, hstrat, rfl, rfl⟩) ho hw hio

/-- Settles O49: RUN_HARD starts SEQ_HARD, whose WAITs are one of 50 ms and two of 100 ms. -/
theorem runHardPlaysSeqHard : Obligations.RunHardPlaysSeqHard := fun _ ho hw hio =>
  exec_performs_rom (.inl ⟨rfl, rfl⟩) ho hw hio

end Sys2Proof.Machine
end

section
/-! PROOFS. The exceptions (60_exceptions.md): the connection is tested before anything else a command does, and
RUN_ENTER tests the strategy next. -/

namespace Sys2Proof.Machine

/-! ### The commands that need the connection (R272, R281) -/

/-- The instruction `i` is one of the nine that need the connection, and `c` is its mnemonic. -/
def NeedsConnection (i : Instr) (c : Cmd) : Prop :=
  ((∃ rate, i = .setBaud rate) ∧ c = .setBaud) ∨ (i = .flush ∧ c = .flush) ∨
  ((∃ bs, i = .write bs) ∧ c = .write) ∨ ((∃ n, i = .read n) ∧ c = .read) ∨
  ((∃ v, i = .setDtr v) ∧ c = .setDtr) ∨ ((∃ v, i = .setRts v) ∧ c = .setRts) ∨
  ((∃ d r, i = .setBoth d r) ∧ c = .setBoth) ∨ (i = .runEnter ∧ c = .runEnter) ∨
  (i = .runHard ∧ c = .runHard)

section
variable {i : Instr} {c : Cmd} {s : State}

/-- Whatever such a command does stands behind the test of the connection, under the mnemonic of the command. -/
theorem exec_eq_requireOpen (h : NeedsConnection i c) (s : State) :
    ∃ body, exec i s = .next (s.requireOpen c body) := by
  obtain ⟨⟨rate, rfl⟩, rfl⟩ | ⟨rfl, rfl⟩ | ⟨⟨bs, rfl⟩, rfl⟩ | ⟨⟨n, rfl⟩, rfl⟩ | ⟨⟨v, rfl⟩, rfl⟩ | ⟨⟨v, rfl⟩, rfl⟩ |
    ⟨⟨d, r, rfl⟩, rfl⟩ | ⟨rfl, rfl⟩ | ⟨rfl, rfl⟩ := h <;> exact ⟨_, rfl⟩

theorem exec_of_closed (h : NeedsConnection i c) (hc : s.lcOpen = false) :
    exec i s = .next (s.raise (.notOpen c)) := by
  obtain ⟨body, hexec⟩ := exec_eq_requireOpen h s
  rw [hexec, requireOpen_closed _ _ _ hc]

end

/-- Settles O42: on a closed block the test of the connection is all that each of the nine commands performs. -/
theorem closedBlockRaisesNotOpen : Obligations.ClosedBlockRaisesNotOpen := fun _ _ _ hc h => exec_of_closed h hc

/-! ### RUN_ENTER without a strategy (R226, R275) -/

theorem exec_runEnter_of_none {s : State} (ho : s.lcOpen = true) (h : s.rsStrategy = none) :
    exec .runEnter s = .next (s.raise .noStrategy) := by
  simp only [exec, execRunEnter, requireOpen_open _ _ _ ho, h]

/-- Settles O50: the strategy is tested after the connection and before the first entry of a sequence. -/
theorem runEnterNeedsStrategy : Obligations.RunEnterNeedsStrategy := fun _ => exec_runEnter_of_none

end Sys2Proof.Machine
end

section
/-! PROOFS. The end of a run (70_reset_and_hazards.md R306): a run is finished when no command is to come, none waits
and the last one issued is CLOSE; only a host's turn or a block reset can change one of the three. -/

namespace Sys2Proof.Machine

/-! ### Finished and good -/

theorem finished_iff {s : State} :
    s.finished = true ↔ noCommandLeft s.env.input = true ∧ s.lcWriting = none ∧ s.lastIsClose = true := by
  simp [State.finished, and_assoc]

theorem finished_congr {s t : State} (hin : noCommandLeft t.env.input = noCommandLeft s.env.input)
    (hw : t.lcWriting = s.lcWriting) (hissued : t.env.issued = s.env.issued) : t.finished = s.finished := by
  simp only [State.finished, hin, hw, lastIsClose_congr hissued]

theorem noFault_congr {s t : State} (h : t.trace = s.trace) : t.noFault = s.noFault := by
  simp only [State.noFault, h]

theorem goodRun_congr {s t : State} (hfinished : t.finished = s.finished) (htrace : t.trace = s.trace) :
    t.goodRun = s.goodRun := by
  simp only [State.goodRun, hfinished, noFault_congr htrace]

theorem goodRun_of_finished {s : State} (h : s.finished = true) : s.goodRun = s.noFault := by
  simp only [State.goodRun, h, Bool.true_and]

/-- A run is not finished while a WRITE waits, while a command is to come, or where nothing was issued. -/
theorem not_finished {s : State}
    (h : s.lcWriting ≠ none ∨ (∃ f bs rest, s.env.input = .host f bs :: rest) ∨ s.env.issued = []) :
    s.finished = false := by
  refine Bool.eq_false_iff.mpr fun hfin => ?_
  obtain ⟨hleft, hwriting, hlast⟩ := finished_iff.mp hfin
  obtain hw | ⟨f, bs, rest, hin⟩ | hnone := h
  · exact hw hwriting
  · rw [hin] at hleft; cases hleft
  · rw [State.lastIsClose, hnone] at hlast; cases hlast

/-! ### The command that was just issued -/

/-- With no WRITE waiting, the command of the host's turn is the last one issued after the step. -/
theorem lastIsClose_of_hostTurn {s t : State} {f : Format} {bs : List Byte} {rest : List Input}
    (hw : s.lcWriting = none) (hin : s.env.input = .host f bs :: rest) (h : step s = .next t) :
    t.lastIsClose = decide (decode f bs = .ok .closeDev) := by
  refine lastIsClose_of_issued_append (cs := s.env.issued) ?_
  rw [step_of_hostTurn hw hin, runPresented] at h
  split at h
  next => exact exec_issued h
  next => cases h; rfl
  next => cases h

theorem not_finished_of_other_command {s t : State} {f : Format} {bs : List Byte} {rest : List Input}
    (hw : s.lcWriting = none) (hin : s.env.input = .host f bs :: rest) (hne : decode f bs ≠ .ok .closeDev)
    (h : step s = .next t) : t.finished = false := by
  rw [State.finished, lastIsClose_of_hostTurn hw hin h, decide_eq_false hne, Bool.and_false]

/-- CLOSE, open or closed, leaves the block closed and appends at most the event of a CLOSE. -/
theorem exec_closeDev_spec (s : State) :
    ∃ t, exec .closeDev s = .next t ∧ t.lcOpen = false ∧ t.lcWriting = s.lcWriting ∧ t.env = s.env ∧
      t.noFault = s.noFault := by
  obtain ⟨hopen, hclosed⟩ := closeCompletes s
  cases ho : s.lcOpen with
  | true => exact ⟨_, hopen ho, rfl, rfl, rfl, by simp [State.noFault, Event.isFault]⟩
  | false => exact ⟨_, hclosed ho, ho, rfl, rfl, rfl⟩

/-- The bytes of CLOSE (30_encoding.md R97). -/
theorem decode_closeDev : decode .command [0x04] = .ok .closeDev := by decide

theorem close_finishes {s : State} {rest : List Input} (hw : s.lcWriting = none)
    (hin : s.env.input = .host .command [0x04] :: rest) (hrest : noCommandLeft rest = true) :
    ∃ t, step s = .next t ∧ t.finished = true ∧ t.lcOpen = false ∧ t.goodRun = s.noFault := by
  obtain ⟨t, hexec, hclosed, hwriting, henv, hfault⟩ := exec_closeDev_spec (s.issuing .command [0x04] rest)
  have hstep : step s = .next t := (step_of_decode_ok decode_closeDev hw hin).trans hexec
  have hleft : noCommandLeft t.env.input = true := by rw [henv]; exact hrest
  have hlast : t.lastIsClose = true :=
    (lastIsClose_of_hostTurn hw hin hstep).trans (decide_eq_true decode_closeDev)
  have hfinished : t.finished = true := finished_iff.mpr ⟨hleft, hwriting.trans hw, hlast⟩
  exact ⟨t, hstep, hfinished, hclosed, (goodRun_of_finished hfinished).trans hfault⟩

/-! ### After the end -/

/-- In a finished run only the wire can act before the next block reset, and it touches neither the record of commands
nor the trace. -/
theorem Turn.keeps_finished {s t : State} (h : Turn s t) (hfin : s.finished = true)
    (hreset : ∀ rest, s.env.input ≠ .blockReset :: rest) : t.finished = s.finished ∧ t.trace = s.trace := by
  have hno_host : ∀ {f bs rest}, s.env.input ≠ .host f bs :: rest := fun hin =>
    Bool.false_ne_true ((not_finished (.inr (.inl ⟨_, _, _, hin⟩))).symm.trans hfin)
  cases h with
  | blockReset rest hin => exact absurd hin (hreset rest)
  | wire w rest hin =>
    obtain ⟨-, -, hinput⟩ := wireStep_env (s.withInput rest) w
    refine ⟨finished_congr ?_ ?_ (wireStep_issued _ w), ?_⟩
    · rw [hinput, hin]; rfl
    · rw [wireStep_frame]; rfl
    · rw [wireStep_frame]; rfl
  | resume w _ hw =>
    obtain ⟨-, hnone, -⟩ := finished_iff.mp hfin
    cases hnone.symm.trans hw
  | idle => exact ⟨rfl, rfl⟩
  | command f bs rest hin => exact absurd hin hno_host
  | reserved f bs rest hin => exact absurd hin hno_host

/-- Settles O60: a step makes its command the last one issued, CLOSE appends no fault and closes the block, and after
the end only the wire acts. -/
theorem runFinishesByClose : Obligations.RunFinishesByClose := by
  refine ⟨fun _ _ => close_finishes, fun _ _ _ _ _ => not_finished_of_other_command, fun _ => not_finished,
    fun s hs hfin => ?_, fun s t hfin h hreset => ?_⟩
  · obtain ⟨-, -, hlast⟩ := finished_iff.mp hfin
    exact hs.closedByClose hlast
  · obtain ⟨hfinished, htrace⟩ := (turn_of_step h).keeps_finished hfin hreset
    exact ⟨hfinished.trans hfin, goodRun_congr hfinished htrace⟩

end Sys2Proof.Machine
end
